-- ==== Sys2Proof/Word.lean ====
section
/-! DEFINITION. The two widths the Motion Control Core gives its registers (R10, R12, R61). -/

namespace Sys2Proof

/-- A byte of a record, of a mask or of a channel control register (R61, R10). -/
abbrev Byte := BitVec 8

/-- The 16-bit pattern of a `u16` or an `s16` register (R10, R12). -/
abbrev Word16 := BitVec 16

end Sys2Proof
end

