-- ==== Sys2Proof/Config.lean ====
section
/-! DEFINITION. The configuration `Cfg` of R8, as plain data, and the one free value of the model.

`Cfg` is fixed before reset is released and never written (R8, R43). The functions `exec` and `step` have no
configuration argument, so a state carries the configuration it runs under (log entry 1): a statement about every
state is a statement about every configuration. -/

namespace Sys2Proof

/-- What R8 gives per pulse generator channel. -/
structure ChannelCfg where
  /-- `ratios[c]`: the allowed prescaler ratios, in ascending order. -/
  ratios : List Nat
  /-- `cmax[c]`: the counter width as the maximum reload value. -/
  cmax : Nat
  /-- `s[c]`: the scale factor. -/
  scale : Nat
  /-- `cs_code[c][k]`: the clock-select pattern that selects `ratios[c][k]`. -/
  csCode : List Byte
  /-- `cs_mask[c]`: the bits of `CTL` that form the clock-select field. -/
  csMask : Byte
  /-- `ctl_init[c]` (R46): what the hardware-init layer leaves in the bits outside `cs_mask[c]`. -/
  ctlInit : Byte
  deriving DecidableEq, Repr

/-- What R8 gives per axis. -/
structure AxisCfg where
  /-- `chan(i)`: the channel bound to the axis. -/
  chan : Nat
  /-- `fmax[i]`: the clamp bound of the axis. -/
  fmax : Nat
  /-- `dir_pos[i]`: the polarity constant that means "position increases". -/
  dirPos : Bool
  /-- `dir_neg[i]`: the polarity constant that means "position decreases". -/
  dirNeg : Bool
  /-- `dir_idle[i]`: the inactive level of the direction output line. -/
  dirIdle : Bool
  /-- `home[i]`: the position after reset. -/
  home : Int
  deriving DecidableEq, Repr

/-- The configuration (R8). -/
structure Cfg where
  /-- `F_CLK`, in Hz. -/
  fClk : Nat
  /-- `N_AX`: the number of axes, and of channels. -/
  nAx : Nat
  channels : List ChannelCfg
  axes : List AxisCfg
  opGet : Byte
  opSet : Byte
  opReset : Byte
  opBoot : Byte
  deriving DecidableEq, Repr

/-- The row of a channel index that the configuration does not list. No well-formed configuration is asked for one (R62). -/
def ChannelCfg.absent : ChannelCfg :=
  { ratios := [], cmax := 0, scale := 0, csCode := [], csMask := 0#8, ctlInit := 0#8 }

/-- The row of an axis index that the configuration does not list. No well-formed configuration is asked for one (R62). -/
def AxisCfg.absent : AxisCfg :=
  { chan := 0, fmax := 0, dirPos := false, dirNeg := false, dirIdle := false, home := 0 }

/-- The parameters of channel `c` (R8). -/
def Cfg.channel (cfg : Cfg) (c : Nat) : ChannelCfg := cfg.channels.getD c ChannelCfg.absent

/-- The parameters of axis `i` (R8). -/
def Cfg.axis (cfg : Cfg) (i : Nat) : AxisCfg := cfg.axes.getD i AxisCfg.absent

/-- `chan(i)`: the channel bound to axis `i` (R8). -/
def Cfg.chan (cfg : Cfg) (i : Nat) : Nat := (cfg.axis i).chan

/-- The length of a command record, `2 + 4*N_AX` bytes (R80). -/
def Cfg.cmdLen (cfg : Cfg) : Nat := 2 + 4 * cfg.nAx

/-- The length of a status record, `1 + 4*N_AX` bytes (R83). -/
def Cfg.statusLen (cfg : Cfg) : Nat := 1 + 4 * cfg.nAx

/-- The channel of ratio list A: {1,8,64,256,1024} on a 65535-count counter (R8, Cfg-T of 95_test_vectors.md). -/
def ChannelCfg.listA (ctlInit : Byte) : ChannelCfg :=
  { ratios := [1, 8, 64, 256, 1024], cmax := 65535, scale := 4,
    csCode := [1#8, 2#8, 3#8, 4#8, 5#8], csMask := 7#8, ctlInit := ctlInit }

/-- The channel of ratio list B: {1,8,32,64,128} on a 255-count counter (R8, Cfg-T of 95_test_vectors.md). -/
def ChannelCfg.listB (ctlInit : Byte) : ChannelCfg :=
  { ratios := [1, 8, 32, 64, 128], cmax := 255, scale := 4,
    csCode := [1#8, 2#8, 3#8, 4#8, 5#8], csMask := 7#8, ctlInit := ctlInit }

/-- An axis with the defaults of R8, bound to channel `c`. -/
def AxisCfg.standard (c : Nat) (home : Int) : AxisCfg :=
  { chan := c, fmax := 50000, dirPos := true, dirNeg := false, dirIdle := false, home := home }

/-- Cfg-T of 95_test_vectors.md: the defaults of R8 with the test configuration's ratio lists, counter widths and
`ctl_init`. DESIGN CHOICE (log entry 1): `State.reset` runs under it; R8 leaves the configuration to the
implementation. -/
def Cfg.test : Cfg :=
  { fClk := 16000000, nAx := 3,
    channels := [ChannelCfg.listA 0x18#8, ChannelCfg.listA 0x00#8, ChannelCfg.listB 0x08#8],
    axes := [AxisCfg.standard 0 0, AxisCfg.standard 1 0, AxisCfg.standard 2 0],
    opGet := 0x01#8, opSet := 0x02#8, opReset := 0xC8#8, opBoot := 0xC9#8 }

/-- FREE VALUE (log entry 2): the quotient of a division by zero. R12 gives `a div b` only for `b >= 1`, and WF7
(R9) keeps every division of a well-formed configuration there. -/
opaque Config.divByZero : Nat → Nat

end Sys2Proof
end

