-- ==== Sys2Proof/Machine/Derivation.lean ====
section
/-! DEFINITION. The arithmetic of the timer parameter derivator (R100 to R111): functions of the configuration, a
channel's parameters and a frequency alone (R109 (f)). All of it is on naturals (R108). -/

namespace Sys2Proof.Machine

/-- `a div b` (R12): the floor of the quotient for `b >= 1`; R12 gives it no value for `b = 0`, a free value here. -/
def divFloor (a b : Nat) : Nat := if b = 0 then Config.divByZero a else a / b

/-- `ratios[c][k]`. -/
def ratioAt (ch : ChannelCfg) (k : Nat) : Nat := ch.ratios.getD k 0

/-- The reload value of frequency `f` at ratio index `k`, before the clamp: `F_CLK div (s * f * ratios[k])` (R104). -/
def reloadAt (fClk : Nat) (ch : ChannelCfg) (f k : Nat) : Nat := divFloor fClk (ch.scale * f * ratioAt ch k)

/-- The loop of R101, from index `k`: escalate while the reload value exceeds the counter and a larger ratio remains.
The fuel bounds the number of escalations, at most `R - 1` (R103). -/
def searchFrom (fClk : Nat) (ch : ChannelCfg) (f : Nat) : Nat → Nat → Nat
  | 0, k => k
  | fuel + 1, k =>
    if ch.cmax < reloadAt fClk ch f k ∧ k + 1 < ch.ratios.length then searchFrom fClk ch f fuel (k + 1) else k

/-- The prescaler index the derivation chooses (R103). -/
def derivePsc (fClk : Nat) (ch : ChannelCfg) (f : Nat) : Nat := searchFrom fClk ch f (ch.ratios.length - 1) 0

/-- The reload value the derivation writes: the one at the chosen index, clamped to the counter (R104). -/
def deriveTop (fClk : Nat) (ch : ChannelCfg) (f : Nat) : Nat := min (reloadAt fClk ch f (derivePsc fClk ch f)) ch.cmax

/-- The achieved frequency of a non-zero request, from the final reload value and ratio (R106, R107). -/
def deriveAchieved (fClk : Nat) (ch : ChannelCfg) (f : Nat) : Nat :=
  divFloor fClk (ch.scale * deriveTop fClk ch f * ratioAt ch (derivePsc fClk ch f))

/-- The condition WF7 puts on one frequency (R9): a reload value of at least 1 and an achieved frequency of 16 bits. -/
def frequencyFits (fClk : Nat) (ch : ChannelCfg) (f : Nat) : Bool :=
  decide (1 ≤ deriveTop fClk ch f) && decide (deriveAchieved fClk ch f ≤ 65535)

/-- The largest frequencies at which each ratio index is chosen: `fmax`, and for every index the largest frequency
whose reload value does not fit there. WF7 is tested on these alone, since at one index the reload value does not
increase with the frequency (R108). -/
def criticalFrequencies (fClk : Nat) (ch : ChannelCfg) (fmax : Nat) : List Nat :=
  fmax :: ch.ratios.map fun p => min fmax (fClk / (ch.scale * (ch.cmax + 1) * p))

/-- WF7 for an axis whose bound is `fmax` on channel `ch` (R9): every critical frequency fits. -/
def rangeFits (fClk : Nat) (ch : ChannelCfg) (fmax : Nat) : Bool :=
  (criticalFrequencies fClk ch fmax).all fun f => f == 0 || frequencyFits fClk ch f

end Sys2Proof.Machine
end

