-- ==== Sys2Proof/Syntax.lean ====
section
/-! DEFINITION. The operations of the Motion Control Core: one constructor per row of spec/opcode_table.json (R86).

The five command opcodes carry the content of their record (R81). The other twelve have no wire encoding (R86); their
operands are an axis index, a channel index, a frequency or the genuine bit of an event. -/

namespace Sys2Proof

/-- One axis slot of a command record: a (2-byte frequency, 2-byte position) pair (R81). -/
structure Slot where
  /-- `f[k]`, a `u16`. -/
  freq : Word16
  /-- `p[k]`, the two's complement pattern of an `s16` (R64). -/
  pos : Word16
  deriving DecidableEq, Repr

/-- What a command record holds after its opcode byte (R81). -/
structure Payload where
  /-- Byte 1: the axis-selection bitmask. -/
  mask : Byte
  /-- The axis slots, in index order. -/
  slots : List Slot
  deriving DecidableEq, Repr

/-- The complete list of operations (R86). -/
inductive Instr where
  /-- GET_STATE: a record whose opcode is `OP_GET` (R147). -/
  | getState (p : Payload)
  /-- SET_STATE: a record whose opcode is `OP_SET` (R148). -/
  | setState (p : Payload)
  /-- RESET_REQ: a record whose opcode is `OP_RESET` (R150). -/
  | resetReq (p : Payload)
  /-- BOOT_REQ: a record whose opcode is `OP_BOOT` (R150). -/
  | bootReq (p : Payload)
  /-- UNRECOGNIZED: a record whose opcode `op` is none of the four (R149). -/
  | unrecognized (op : Byte) (p : Payload)
  /-- ACCEPT: the foreground step that takes the record on the command port (R146). -/
  | accept
  /-- BATCH: the foreground step that applies the latched command (R153). -/
  | batch
  /-- UPDATE_AXIS(i): the foreground step that resynchronizes a dirty axis (R171). -/
  | updateAxis (i : Nat)
  /-- CLRMASK: the foreground step that clears the latched mask (R156). -/
  | clrMask
  /-- SNAPSHOT: the foreground step that writes the status record (R158). -/
  | snapshot
  /-- DERIVE(c, f): the timer parameter derivator (R101). -/
  | derive (c : Nat) (f : Word16)
  /-- ENABLE(c) (R121). -/
  | enable (c : Nat)
  /-- DISABLE(c) (R123). -/
  | disable (c : Nat)
  /-- GUARD_ENTER (R181). -/
  | guardEnter
  /-- GUARD_EXIT (R182). -/
  | guardExit
  /-- OVF(c, g): the overflow event of channel `c`, genuine when `g` (R131). -/
  | ovf (c : Nat) (g : Bool)
  /-- TRACK(i): the tracker step of axis `i` (R132). -/
  | track (i : Nat)
  deriving DecidableEq, Repr

end Sys2Proof
end

