-- ==== Sys2Proof/WellFormed.lean ====
section
/-! DEFINITION. Well-formed configurations (R9, WF1 to WF8, and the legal values of R8 and R46) and well-formed
operations (R62, R80, R87). -/

namespace Sys2Proof

/-- WF1: between one and eight axes. -/
def Cfg.wf1 (cfg : Cfg) : Bool := decide (1 ≤ cfg.nAx ∧ cfg.nAx ≤ 8)

/-- WF2: one row per axis and per channel, and `chan` is a bijection on `0 .. N_AX-1`. -/
def Cfg.wf2 (cfg : Cfg) : Bool :=
  decide (cfg.axes.length = cfg.nAx) && decide (cfg.channels.length = cfg.nAx) &&
    (cfg.axes.all fun a => decide (a.chan < cfg.nAx)) && decide (cfg.axes.map AxisCfg.chan).Nodup

/-- WF3: every ratio list is non-empty, strictly ascending, its ratios at least 1. -/
def Cfg.wf3 (cfg : Cfg) : Bool :=
  cfg.channels.all fun ch =>
    decide (ch.ratios ≠ []) && decide (ch.ratios.Pairwise (· < ·)) && ch.ratios.all fun p => decide (1 ≤ p)

/-- WF4: the clock, the scale factors and the counter widths are in range. -/
def Cfg.wf4 (cfg : Cfg) : Bool :=
  decide (1 ≤ cfg.fClk) && cfg.channels.all fun ch => decide (1 ≤ ch.scale ∧ 1 ≤ ch.cmax ∧ ch.cmax ≤ 65535)

/-- WF5: one clock-select code per ratio, non-zero, pairwise different, inside the field. -/
def Cfg.wf5 (cfg : Cfg) : Bool :=
  cfg.channels.all fun ch =>
    decide (ch.csCode.length = ch.ratios.length) && decide ch.csCode.Nodup &&
      ch.csCode.all fun code => decide (code ≠ 0#8 ∧ code &&& ~~~ch.csMask = 0#8)

/-- WF6: the polarity constants differ, and the frequency bound and the home position fit their registers. -/
def Cfg.wf6 (cfg : Cfg) : Bool :=
  cfg.axes.all fun a => decide (a.dirPos ≠ a.dirNeg ∧ a.fmax ≤ 65535 ∧ -32768 ≤ a.home ∧ a.home ≤ 32767)

/-- WF7: no request up to the axis bound derives a reload value of 0 or a frequency above 65535. -/
def Cfg.wf7 (cfg : Cfg) : Bool :=
  cfg.axes.all fun a => Machine.rangeFits cfg.fClk (cfg.channel a.chan) a.fmax

/-- WF8: the four opcode bytes are pairwise different. -/
def Cfg.wf8 (cfg : Cfg) : Bool := decide [cfg.opGet, cfg.opSet, cfg.opReset, cfg.opBoot].Nodup

/-- WF1 to WF8 (R9). -/
def Cfg.wellFormed (cfg : Cfg) : Bool :=
  cfg.wf1 && cfg.wf2 && cfg.wf3 && cfg.wf4 && cfg.wf5 && cfg.wf6 && cfg.wf7 && cfg.wf8

/-- The legal values R8, R46 and R87 give beside R9: a non-zero clock-select field whose bits are clear in `ctl_init`,
and no recognised opcode equal to 99. -/
def Cfg.legalValues (cfg : Cfg) : Bool :=
  (cfg.channels.all fun ch => decide (ch.csMask ≠ 0#8 ∧ ch.ctlInit &&& ch.csMask = 0#8)) &&
    decide (99#8 ∉ [cfg.opGet, cfg.opSet, cfg.opReset, cfg.opBoot])

/-- A configuration the core is started with (R9, R233): any other is refused (R202). -/
def Cfg.accepted (cfg : Cfg) : Bool := cfg.wellFormed && cfg.legalValues

/-- WF7 in the words of R9: every frequency from 1 to the axis bound. `Cfg.wf7` is its efficient form. -/
def Cfg.EveryFrequencyFits (cfg : Cfg) : Prop :=
  ∀ a ∈ cfg.axes, ∀ f, 1 ≤ f → f ≤ a.fmax →
    1 ≤ Machine.deriveTop cfg.fClk (cfg.channel a.chan) f ∧
      Machine.deriveAchieved cfg.fClk (cfg.channel a.chan) f ≤ 65535

/-- `op` is one of the four recognised opcodes (R87). -/
def Cfg.recognises (cfg : Cfg) (op : Byte) : Bool :=
  op == cfg.opGet || op == cfg.opSet || op == cfg.opReset || op == cfg.opBoot

/-- A record has one slot per axis (R80). -/
def Payload.fits (cfg : Cfg) (p : Payload) : Bool := decide (p.slots.length = cfg.nAx)

/-- A well-formed operation: its record has one slot per axis (R80), an unrecognised opcode is none of the four (R87),
its axis or channel index exists (R62). -/
def Instr.wellFormed (cfg : Cfg) : Instr → Bool
  | .getState p => p.fits cfg
  | .setState p => p.fits cfg
  | .resetReq p => p.fits cfg
  | .bootReq p => p.fits cfg
  | .unrecognized op p => p.fits cfg && !cfg.recognises op
  | .accept => true
  | .batch => true
  | .updateAxis i => decide (i < cfg.nAx)
  | .clrMask => true
  | .snapshot => true
  | .derive c _ => decide (c < cfg.nAx)
  | .enable c => decide (c < cfg.nAx)
  | .disable c => decide (c < cfg.nAx)
  | .guardEnter => true
  | .guardExit => true
  | .ovf c _ => decide (c < cfg.nAx)
  | .track i => decide (i < cfg.nAx)

end Sys2Proof
end

