-- ==== Sys2Proof/Decode.lean ====
section
/-! DEFINITION. The decoder of command records, total on any bytes (R80 to R82, R87 to R89), and the encoder. -/

namespace Sys2Proof

/-- Bits 7:0 of a 2-byte field: the byte at its offset (R63). -/
def lowByte (v : Word16) : Byte := v.setWidth 8

/-- Bits 15:8 of a 2-byte field: the byte after it (R63). -/
def highByte (v : Word16) : Byte := (v >>> 8).setWidth 8

/-- A 2-byte field from the byte at its offset and the byte after it (R63). -/
def word16 (lo hi : Byte) : Word16 := hi ++ lo

/-- The four-way choice on the opcode byte, with the default case (R87, R146). -/
inductive OpKind where
  | get
  | set
  | reset
  | boot
  | unrecognized
  deriving DecidableEq, Repr

/-- Compare the opcode byte with the four parameters; UNRECOGNIZED when none matches (R87). -/
def opKind (cfg : Cfg) (op : Byte) : OpKind :=
  if op = cfg.opReset then .reset
  else if op = cfg.opBoot then .boot
  else if op = cfg.opSet then .set
  else if op = cfg.opGet then .get
  else .unrecognized

/-- Why bytes are no command record. The opcode and the mask reject nothing (R88). -/
inductive DecodeError where
  /-- The record is `n` bytes long, not `2 + 4*N_AX` (R80: a model refuses any other length). -/
  | recordLength (n : Nat)
  deriving DecidableEq, Repr

/-- The axis slots of a record, four bytes each (R81). -/
def decodeSlots : List Byte → List Slot
  | b0 :: b1 :: b2 :: b3 :: rest => { freq := word16 b0 b1, pos := word16 b2 b3 } :: decodeSlots rest
  | _ => []

/-- The operation an opcode byte selects, with the content of its record (R86, R87). -/
def commandOf (cfg : Cfg) (op : Byte) (p : Payload) : Instr :=
  match opKind cfg op with
  | .get => .getState p
  | .set => .setState p
  | .reset => .resetReq p
  | .boot => .bootReq p
  | .unrecognized => .unrecognized op p

/-- Decode a command record (R80 to R82, R87): byte 0 selects the operation, byte 1 is the mask, the slots follow. -/
def decode (cfg : Cfg) (bytes : List Byte) : Except DecodeError Instr :=
  match bytes with
  | op :: mask :: rest =>
    if rest.length = 4 * cfg.nAx then .ok (commandOf cfg op { mask := mask, slots := decodeSlots rest })
    else .error (.recordLength bytes.length)
  | _ => .error (.recordLength bytes.length)

/-- The four bytes of one slot, each field little-endian (R63, R81). -/
def encodeSlot (sl : Slot) : List Byte := [lowByte sl.freq, highByte sl.freq, lowByte sl.pos, highByte sl.pos]

/-- The bytes of a record with opcode `op` (R81). -/
def encodeRecord (op : Byte) (p : Payload) : List Byte := op :: p.mask :: p.slots.flatMap encodeSlot

/-- The record of a command; the operations without a wire encoding have none (R86). -/
def encode (cfg : Cfg) : Instr → Option (List Byte)
  | .getState p => some (encodeRecord cfg.opGet p)
  | .setState p => some (encodeRecord cfg.opSet p)
  | .resetReq p => some (encodeRecord cfg.opReset p)
  | .bootReq p => some (encodeRecord cfg.opBoot p)
  | .unrecognized op p => some (encodeRecord op p)
  | .accept => none
  | .batch => none
  | .updateAxis _ => none
  | .clrMask => none
  | .snapshot => none
  | .derive _ _ => none
  | .enable _ => none
  | .disable _ => none
  | .guardEnter => none
  | .guardExit => none
  | .ovf _ _ => none
  | .track _ => none

/-- The bytes of a table word: byte `j` of the record is bits `8j+7 : 8j` of `w`, the bits from `nbits` up are 0, and
zero bytes fill the record to `len` bytes. -/
def tableBytes (len nbits w : Nat) : List Byte :=
  (List.range (max len ((nbits + 7) / 8))).map fun j => BitVec.ofNat 8 (w % 2 ^ nbits / 2 ^ (8 * j))

/-- The instruction the decoder reads from a table word, under the configuration of `State.reset`. -/
def decodeTableWord (nbits w : Nat) : Option Instr :=
  match decode Cfg.test (tableBytes Cfg.test.cmdLen nbits w) with
  | .ok i => some i
  | .error _ => none

end Sys2Proof
end

