-- ==== Sys2Proof/Machine/State.lean ====
section
/-! DEFINITION. The state of the Motion Control Core (R20 to R46), plain data, and the state after reset (R46, R231).

Beside the registers of 10_state.md a state carries the configuration (log entry 1), the record waiting on the command
port (R44), the output writes of the step just taken (log entry 14), and the list of inputs still to come: what the
transport, the pulse generators, the firmware and the scheduler do next (log entry 3). R186 and R187 leave these choices
open; as data of the state every choice is there. -/

namespace Sys2Proof.Machine

/-- A record buffer (R60): the bytes by offset, in the canonical form of `Memory.wf` (Ops.lean). An offset that is not
listed reads 0, the reset value of both buffers (R46). -/
abbrev Memory := List Host.Cell

/-- `AX[i]`: the five registers of an axis record (R20 to R25). -/
structure AxisRegs where
  /-- The commanded frequency, a `u16`; 0 = stopped (R21). -/
  freq : Word16
  /-- The current position, an `s16` (R22). -/
  pos : Word16
  /-- The target position, an `s16` (R23). -/
  target : Word16
  /-- The direction flag (R24). -/
  dir : Bool
  /-- A parameter update is pending (R25). -/
  dirty : Bool
  deriving DecidableEq, Repr

/-- `CH[c]`: the four registers of a channel record (R30 to R34). -/
structure ChannelRegs where
  /-- The prescaler index, in `0 .. R[c]-1` (R31). -/
  psc : Nat
  /-- The reload value, a `u16` (R32). -/
  top : Word16
  /-- The on/off flag `on` (R33). -/
  isOn : Bool
  /-- `CTL`: the control register with the clock-select field (R34). -/
  ctl : Byte
  deriving DecidableEq, Repr

/-- The value of an axis record outside the table; none is read in a machine state (R62). -/
def AxisRegs.absent : AxisRegs := { freq := 0#16, pos := 0#16, target := 0#16, dir := false, dirty := false }

/-- The value of a channel record outside the table; none is read in a machine state (R62). -/
def ChannelRegs.absent : ChannelRegs := { psc := 0, top := 0#16, isOn := false, ctl := 0#8 }

/-- The phases of the foreground sequencer (R40). -/
inductive Phase where
  | idle
  | batch
  /-- `UPD(k)`, `k` in `0 .. N_AX`. -/
  | upd (k : Nat)
  | clr
  | snap
  deriving DecidableEq, Repr

/-- One choice that the core leaves to the outside or to the scheduler (R186, R187, R230, R233). -/
inductive Input where
  /-- The transport presents a record on the command port (R44, R186). -/
  | present (bytes : List Byte)
  /-- The environment raises the overflow event of channel `c`, with `ovf_genuine[c] = g` (R44, R131). -/
  | overflow (c : Nat) (g : Bool)
  /-- The scheduler lets the tracker of axis `i` take its step, if it is enabled (R187). -/
  | tracker (i : Nat)
  /-- The scheduler lets the foreground agent take its step, if one is enabled (R187). -/
  | foreground
  /-- The surrounding firmware, or power-on, asserts `rst` (R230). -/
  | rst
  /-- The boot step of the surrounding firmware: `IE <- 1` (R233). -/
  | boot
  deriving DecidableEq, Repr

/-- One write to a register that the outside of the core sees: a pulse generator's counter or a direction output (R45,
R175, R206). -/
inductive OutputWrite where
  /-- `CH[c].CTL <- b`. -/
  | ctl (c : Nat) (b : Byte)
  /-- `CH[c].psc <- k`. -/
  | psc (c k : Nat)
  /-- `CH[c].top <- v`. -/
  | top (c : Nat) (v : Word16)
  /-- `DIRLINE[i] <- level`. -/
  | line (i : Nat) (level : Bool)
  deriving DecidableEq, Repr

/-- The state of the machine. -/
structure State where
  /-- `Cfg` (R8), the constant parameter of the run: no operation writes it. -/
  cfg : Cfg
  /-- `AX[0] .. AX[N_AX-1]` (R20). -/
  ax : List AxisRegs
  /-- `CH[0] .. CH[N_AX-1]` (R30). -/
  ch : List ChannelRegs
  /-- `DIRLINE[i]`: the level of the direction output of axis `i` (R27). -/
  dirline : List Bool
  /-- `PEND[i]`: a genuine event of axis `i` waits for its tracker (R37). -/
  pend : List Bool
  /-- `OVERRUN[i]`: a genuine event of axis `i` was lost (R38). -/
  overrun : List Bool
  /-- `IE`: the global interrupt enable (R35). -/
  ie : Bool
  /-- `SAVED_IE`: the copy GUARD_ENTER takes (R36). -/
  savedIe : Bool
  /-- `FG_PC`: the phase whose step the foreground takes next (R40). -/
  fgPc : Phase
  /-- `CMD`: the command latch, offsets `0 .. 1 + 4*N_AX` (R41, R60). -/
  cmd : Memory
  /-- `STATUS`: the status buffer, offsets `0 .. 4*N_AX` (R42, R60). -/
  status : Memory
  /-- `STATUS_VALID`: raised by the step just taken (R42, R45). -/
  statusValid : Bool
  /-- `cmd_take`: raised by the step just taken (R45, R146). -/
  cmdTake : Bool
  /-- `req_reset`: raised by the step just taken (R45, R150). -/
  reqReset : Bool
  /-- `req_boot`: raised by the step just taken (R45, R150). -/
  reqBoot : Bool
  /-- What the outside saw change inside the step just taken (R73): its output writes, in their order, oldest first (the
  model's own field, log entry 14). -/
  outputs : List OutputWrite
  /-- `cmd_data` with `cmd_valid` (R44): the record the transport holds on the command port, if any. -/
  cmdPort : Option (List Byte)
  /-- The choices of the environment and of the scheduler still to come, oldest first (the model's own field). -/
  inputs : List Input
  deriving DecidableEq, Repr

/-- The core raises no exception and has no fault (R200): no constructor. -/
inductive Fault where
  deriving DecidableEq, Repr

/-- Why a state or an operation is given no meaning. All are safe: no behaviour is claimed. -/
inductive Refusal where
  /-- An operation that has no meaning in this model yet: raised by `exec`'s arms alone; no arm raises it. -/
  | notModelled (mnemonic : String)
  /-- The configuration is not well formed (R9, R202: refused, never run). Raised by every operation and every step. Safe. -/
  | configNotWellFormed
  /-- The data is no state of the core: a table without `N_AX` entries, a prescaler index outside its list, a phase
  `UPD(k)` with `k > N_AX`, a record byte outside its buffer (R20, R30, R31, R40, R60). Raised by every operation and
  every step; no operation leads to such data. Safe. -/
  | notAState
  /-- A command record of `n` bytes where the format has `2 + 4*N_AX` (R80, R202). Raised by ACCEPT and by the command
  opcodes. Safe. -/
  | recordLength (n : Nat)
  /-- An axis or channel index outside `0 .. N_AX-1` (R62). Raised by every operation with an index operand. Safe. -/
  | indexOutOfRange (i : Nat)
  deriving DecidableEq, Repr

/-- The outcome of an operation or a step. -/
abbrev Result := Host.Outcome State Fault Refusal

/-- `AX[i]` after reset (R46). -/
def AxisRegs.reset (a : AxisCfg) : AxisRegs :=
  { freq := 0#16, pos := BitVec.ofInt 16 a.home, target := BitVec.ofInt 16 a.home, dir := a.dirPos, dirty := false }

/-- `CH[c]` after reset (R46). -/
def ChannelRegs.reset (ch : ChannelCfg) : ChannelRegs := { psc := 0, top := 0#16, isOn := false, ctl := ch.ctlInit }

/-- Every register at the value of R46, under the configuration `cfg`. -/
def State.resetOf (cfg : Cfg) : State :=
  { cfg := cfg
    ax := cfg.axes.map AxisRegs.reset
    ch := cfg.channels.map ChannelRegs.reset
    dirline := cfg.axes.map AxisCfg.dirIdle
    pend := cfg.axes.map fun _ => false
    overrun := cfg.axes.map fun _ => false
    ie := false
    savedIe := false
    fgPc := .idle
    cmd := []
    status := []
    statusValid := false
    cmdTake := false
    reqReset := false
    reqBoot := false
    outputs := []
    cmdPort := none
    inputs := [] }

/-- The machine right after reset (R46, R231), under the test configuration (log entry 1). -/
def State.reset : State := State.resetOf Cfg.test

end Sys2Proof.Machine
end

