-- ==== Sys2Proof/Machine/Operands.lean ====
section
/-! DEFINITION. The operand forms: signed readings, the wrapping sum, mask bits, the direction comparison and the clamp
(R12, R64, R82, R152, R153). -/

namespace Sys2Proof.Machine

/-- `wrap16(z)`: the `s16` pattern congruent to `z` modulo 65536 (R12). -/
def wrap16 (z : Int) : Word16 := BitVec.ofInt 16 z

/-- `zext_16(v)`: a frequency field read as a natural (R12, R64). -/
def zext16 (v : Word16) : Nat := v.toNat

/-- `sext_16(v)`: a position field read as a signed integer (R12, R64). -/
def sext16 (v : Word16) : Int := v.toInt

/-- Bit `k` of the axis-selection bitmask (R82, R152). -/
def selects (mask : Byte) (k : Nat) : Bool := mask.getLsbD k

/-- The offset of the frequency field of slot `k` in `CMD` (R61, R81). -/
def cmdFreqOffset (k : Nat) : Nat := 2 + 4 * k

/-- The offset of the position field of slot `k` in `CMD` (R61, R81). -/
def cmdPosOffset (k : Nat) : Nat := 4 + 4 * k

/-- The offset of the frequency field of slot `k` in `STATUS` (R61, R84). -/
def statusFreqOffset (k : Nat) : Nat := 1 + 4 * k

/-- The offset of the position field of slot `k` in `STATUS` (R61, R84). -/
def statusPosOffset (k : Nat) : Nat := 3 + 4 * k

/-- The clamp to the axis maximum (R153, R174): `min(f, fmax)`. -/
def clampFreq (a : AxisCfg) (f : Nat) : Nat := min f a.fmax

/-- The position after one step in the direction of the flag (R133): `+1` when it is the positive polarity, `-1`
otherwise, with `wrap16`. -/
def countedPos (a : AxisCfg) (r : AxisRegs) : Word16 :=
  if r.dir = a.dirPos then wrap16 (sext16 r.pos + 1) else wrap16 (sext16 r.pos - 1)

/-- The registers of a selected axis after the batch (R153): the clamped request, the new target, the direction from
the signed comparison with the current position; at equality the frequency is forced to 0 and the direction kept. -/
def commandedRegs (a : AxisCfg) (r : AxisRegs) (f : Nat) (p : Word16) : AxisRegs :=
  if sext16 r.pos < sext16 p then
    { r with freq := BitVec.ofNat 16 (clampFreq a f), target := p, dir := a.dirPos, dirty := true }
  else if sext16 p < sext16 r.pos then
    { r with freq := BitVec.ofNat 16 (clampFreq a f), target := p, dir := a.dirNeg, dirty := true }
  else { r with freq := 0#16, target := p, dirty := true }

end Sys2Proof.Machine
end

