-- ==== Sys2Proof/Machine/Ops.lean ====
section
/-! DEFINITION. The named operations over the record buffers and the register tables (R13, R14, R60 to R69), the checks
every operation starts with, and the entry of the overflow interrupt (R213). -/

namespace Sys2Proof.Machine

/-! ## Record buffers (R14, R60, R63) -/

/-- The canonical form of a buffer: offsets strictly rising, and no listed byte equal to what an unlisted offset reads
as, which is 0 (R46). -/
def Memory.wf (m : Memory) : Bool :=
  decide ((m.map Prod.fst).Pairwise (· < ·)) && m.all fun cell => decide (cell.2 ≠ 0#8)

/-- Every listed offset lies in a buffer of `len` bytes (R60). -/
def Memory.within (m : Memory) (len : Nat) : Bool := m.all fun cell => decide (cell.1 < len)

/-- `MemRead(buf + off, 1)` (R14). -/
def Memory.read (m : Memory) (off : Nat) : Byte := (m.lookup off).getD 0#8

/-- Place a byte in the canonical list: an entry for `off` is replaced, or removed when the byte is 0. -/
def Memory.write (m : Memory) (off : Nat) (b : Byte) : Memory :=
  match m with
  | [] => if b = 0#8 then [] else [(off, b)]
  | (a, x) :: rest =>
    if off < a then (if b = 0#8 then (a, x) :: rest else (off, b) :: (a, x) :: rest)
    else if off = a then (if b = 0#8 then rest else (off, b) :: rest)
    else (a, x) :: Memory.write rest off b

/-- `MemRead(buf + off, 2)`: byte `off` is bits 7:0, byte `off + 1` bits 15:8 (R14, R63). -/
def Memory.read16 (m : Memory) (off : Nat) : Word16 := word16 (m.read off) (m.read (off + 1))

/-- `MemWrite(buf + off, 2, v)` (R14, R63). -/
def Memory.write16 (m : Memory) (off : Nat) (v : Word16) : Memory :=
  (m.write off (lowByte v)).write (off + 1) (highByte v)

/-- Store the bytes of a record from offset `off` on (R67). -/
def Memory.writeBytes (m : Memory) (off : Nat) : List Byte → Memory
  | [] => m
  | b :: bs => (m.write off b).writeBytes (off + 1) bs

/-! ## Register tables (R13, R62) -/

/-- `AX[i]`. -/
def State.axis (s : State) (i : Nat) : AxisRegs := s.ax.getD i AxisRegs.absent

/-- `AX[i] <- r`. -/
def State.setAxis (s : State) (i : Nat) (r : AxisRegs) : State := { s with ax := s.ax.set i r }

/-- `CH[c]`. -/
def State.channel (s : State) (c : Nat) : ChannelRegs := s.ch.getD c ChannelRegs.absent

/-- `CH[c] <- r`. -/
def State.setChannel (s : State) (c : Nat) (r : ChannelRegs) : State := { s with ch := s.ch.set c r }

/-- `DIRLINE[i]`. -/
def State.line (s : State) (i : Nat) : Bool := s.dirline.getD i false

/-- `DIRLINE[i] <- b`. -/
def State.setLine (s : State) (i : Nat) (b : Bool) : State := { s with dirline := s.dirline.set i b }

/-- `CH[c].on <- b`. -/
def State.setOn (s : State) (c : Nat) (b : Bool) : State := s.setChannel c { s.channel c with isOn := b }

/-- What one output write does to the registers. -/
def State.apply (s : State) (w : OutputWrite) : State :=
  match w with
  | .ctl c b => s.setChannel c { s.channel c with ctl := b }
  | .psc c k => s.setChannel c { s.channel c with psc := k }
  | .top c v => s.setChannel c { s.channel c with top := v }
  | .line i level => s.setLine i level

/-- A write to an output register: the outside sees it after the earlier ones of its step (R73). -/
def State.output (s : State) (w : OutputWrite) : State := { s.apply w with outputs := s.outputs ++ [w] }

/-- `PEND[i]`. -/
def State.pending (s : State) (i : Nat) : Bool := s.pend.getD i false

/-- `PEND[i] <- b`. -/
def State.setPending (s : State) (i : Nat) (b : Bool) : State := { s with pend := s.pend.set i b }

/-- `OVERRUN[i]`. -/
def State.overran (s : State) (i : Nat) : Bool := s.overrun.getD i false

/-- `OVERRUN[i] <- 1`. -/
def State.setOverrun (s : State) (i : Nat) : State := { s with overrun := s.overrun.set i true }

/-- `AX[i].freq <- f`. -/
def State.setFreq (s : State) (i : Nat) (f : Word16) : State := s.setAxis i { s.axis i with freq := f }

/-- `AX[i].pos <- p`. -/
def State.setPos (s : State) (i : Nat) (p : Word16) : State := s.setAxis i { s.axis i with pos := p }

/-- `AX[i].dirty <- b`. -/
def State.setDirty (s : State) (i : Nat) (b : Bool) : State := s.setAxis i { s.axis i with dirty := b }

/-- `FG_PC <- phase` (R15, R40). -/
def State.setPhase (s : State) (ph : Phase) : State := { s with fgPc := ph }

/-- The start of a turn: the one-step strobes of R45 are lowered, since a strobe is raised for the step that raises it
and no longer, and no output is written yet (R73). -/
def State.startTurn (s : State) : State :=
  { s with statusValid := false, cmdTake := false, reqReset := false, reqBoot := false, outputs := [] }

/-- Run `f k` for `k = 0, 1, .., n-1`, in ascending order (R148, R153, R158). -/
def forAxes : Nat → (Nat → State → State) → State → State
  | 0, _, s => s
  | n + 1, f, s => f n (forAxes n f s)

/-- The axis bound to channel `c`, the `i` with `chan(i) == c` (R131); in a well-formed configuration there is
exactly one (WF2). -/
def boundAxis (cfg : Cfg) (c : Nat) : Nat := ((List.range cfg.nAx).find? fun i => cfg.chan i == c).getD 0

/-! ## The shape of a state -/

/-- The tables have `N_AX` entries (R20, R30, R37, R38, R27). -/
def State.tablesFit (s : State) : Bool :=
  decide (s.ax.length = s.cfg.nAx) && decide (s.ch.length = s.cfg.nAx) && decide (s.dirline.length = s.cfg.nAx) &&
    decide (s.pend.length = s.cfg.nAx) && decide (s.overrun.length = s.cfg.nAx)

/-- Every prescaler index is a slot of its ratio list (R31: "effective prescaler index always a valid slot"). -/
def State.indexesFit (s : State) : Bool :=
  (List.range s.cfg.nAx).all fun c => decide ((s.channel c).psc < (s.cfg.channel c).ratios.length)

/-- `UPD(k)` has `k` in `0 .. N_AX` (R40). -/
def State.phaseFits (s : State) : Bool :=
  match s.fgPc with
  | .upd k => decide (k ≤ s.cfg.nAx)
  | .idle => true
  | .batch => true
  | .clr => true
  | .snap => true

/-- Both buffers are canonical and hold nothing outside their records (R60). -/
def State.buffersFit (s : State) : Bool :=
  s.cmd.wf && s.cmd.within s.cfg.cmdLen && s.status.wf && s.status.within s.cfg.statusLen

/-- The data is a state of the core: every register holds a value of its range. -/
def State.fits (s : State) : Bool := s.tablesFit && s.indexesFit && s.phaseFits && s.buffersFit

/-- The state of a core that was started: an accepted configuration (R9, R233) and registers that fit. -/
def State.valid (s : State) : Bool := s.cfg.accepted && s.fits

/-! ## The checks of an operation -/

/-- Only a well-formed configuration has a machine (R9, R202), and only a state of it takes a step. -/
def whenValid (s : State) (r : Result) : Result :=
  if s.cfg.accepted then (if s.fits then r else .refused .notAState) else .refused .configNotWellFormed

/-- The axis or channel index exists (R62). -/
def whenIndex (i : Nat) (s : State) (r : Result) : Result :=
  if i < s.cfg.nAx then r else .refused (.indexOutOfRange i)

/-- The record has the length of the format (R80). -/
def whenRecord (bytes : List Byte) (s : State) (r : Result) : Result :=
  if bytes.length = s.cfg.cmdLen then r else .refused (.recordLength bytes.length)

/-- A step that is enabled is taken; one that is not enabled is not, and nothing changes (R186; log entry 4). -/
def whenEnabled (enabled : Bool) (s : State) (r : Result) : Result := if enabled then r else .next s

/-! ## The overflow interrupt (R210, R213, R214) -/

/-- A genuine event is latched, one deep; a second one sets the overrun bit (R131, R210). -/
def latchEvent (i : Nat) (s : State) : State := if s.pending i then s.setOverrun i else s.setPending i true

/-- Entry of the overflow interrupt of axis `i` (R213): nothing is saved or switched, the handler is fixed, and its
first write clears the latch. The return (R214) is the end of the tracker step: it writes nothing. -/
def enterTracker (i : Nat) (s : State) : State := s.setPending i false

/-! ## The command port (R44, R67, R146, R150) -/

/-- ACCEPT takes the record: it leaves the port and `cmd_take` is raised for the step (R146). -/
def takeRecord (s : State) : State := { s with cmdPort := none, cmdTake := true }

/-- The record is latched whole and the sequencer goes to `ph` (R146, R67). -/
def latchRecord (bytes : List Byte) (ph : Phase) (s : State) : State :=
  { takeRecord s with cmd := s.cmd.writeBytes 0 bytes, fgPc := ph }

/-- The front end filters a reset request: the strobe is raised and the sequencer stays idle (R146, R150). -/
def requestReset (s : State) : State := { takeRecord s with reqReset := true, fgPc := .idle }

/-- The front end filters a bootloader request (R146, R150). -/
def requestBoot (s : State) : State := { takeRecord s with reqBoot := true, fgPc := .idle }

end Sys2Proof.Machine
end

