-- ==== Sys2Proof/Machine/Flags.lean ====
section
/-! DEFINITION. The one-bit conditions: the core has no arithmetic condition codes (R39); these are the enabling conditions
of the steps (R186) and the axis states of R29, functions of the registers. -/

namespace Sys2Proof.Machine

/-- The clock-select field of `CH[c].CTL` (R34). -/
def State.clockField (s : State) (c : Nat) : Byte := (s.channel c).ctl &&& (s.cfg.channel c).csMask

/-- The counter of channel `c` is clocked: its clock-select field is not 0 (R34, R206, R208). -/
def State.clocked (s : State) (c : Nat) : Bool := s.clockField c != 0#8

/-- `OVF(c, g)` is enabled: a spurious event always, a genuine one only on a clocked channel (R131, R186, R208). -/
def overflowEnabled (c : Nat) (g : Bool) (s : State) : Bool := !g || s.clocked c

/-- `TRACK(i)` is enabled: `PEND[i] == 1` and `IE == 1` (R132, R186). -/
def trackEnabled (i : Nat) (s : State) : Bool := s.pending i && s.ie

/-- ACCEPT's phase (R146). -/
def State.isIdle (s : State) : Bool := decide (s.fgPc = .idle)

/-- UPDATE_AXIS(i) is enabled: phase `UPD(i)` and `AX[i].dirty == 1` (R155, R171). -/
def updateEnabled (i : Nat) (s : State) : Bool := decide (s.fgPc = .upd i) && (s.axis i).dirty

/-- Axis `i` is RUNNING: frequency above 0, channel on (R29). -/
def State.running (s : State) (i : Nat) : Bool := decide ((s.axis i).freq ≠ 0#16) && (s.channel (s.cfg.chan i)).isOn

/-- Axis `i` is STOPPED: frequency 0, channel off (R29). -/
def State.stopped (s : State) (i : Nat) : Bool := decide ((s.axis i).freq = 0#16) && !(s.channel (s.cfg.chan i)).isOn

/-- The lowest axis whose tracker is enabled, if any. -/
def State.nextTracker (s : State) : Option Nat := (List.range s.cfg.nAx).find? fun i => trackEnabled i s

end Sys2Proof.Machine
end

