-- ==== Sys2Proof/Machine/Guard.lean ====
section
/-! DEFINITION. The axis-state synchronizer: GUARD_ENTER and GUARD_EXIT (R180 to R184). -/

namespace Sys2Proof.Machine

/-- GUARD_ENTER (R181): save `IE`, then clear it. -/
def guardEnter (s : State) : State := { s with savedIe := s.ie, ie := false }

/-- GUARD_EXIT (R182): restore the saved copy. -/
def guardExit (s : State) : State := { s with ie := s.savedIe }

/-- The operation GUARD_ENTER. -/
def execGuardEnter (s : State) : Result := whenValid s (.next (guardEnter s))

/-- The operation GUARD_EXIT. -/
def execGuardExit (s : State) : Result := whenValid s (.next (guardExit s))

end Sys2Proof.Machine
end

