-- ==== Sys2Proof/Machine/Command.lean ====
section
/-! DEFINITION. The command dispatcher: ACCEPT, the five command opcodes, BATCH, CLRMASK and SNAPSHOT (R145 to R161).

A dispatch is the run of foreground steps from one ACCEPT to the return to IDLE (R145), and tracker steps may fall
between them (R71, R241). So the meaning of a command opcode is what the accepting step does on it, and its phases
(R147 to R149) follow as steps of their own. -/

namespace Sys2Proof.Machine

/-- ACCEPT on the record `bytes` (R146): the two filtered opcodes raise their strobe, SET_STATE goes to BATCH, any other
opcode to SNAP. -/
def acceptRecord (bytes : List Byte) (s : State) : State :=
  match opKind s.cfg (bytes.headD 0#8) with
  | .reset => requestReset s
  | .boot => requestBoot s
  | .set => latchRecord bytes .batch s
  | .get => latchRecord bytes .snap s
  | .unrecognized => latchRecord bytes .snap s

/-- The foreground step ACCEPT (R146): enabled in phase IDLE with a record on the port. -/
def execAccept (s : State) : Result :=
  whenValid s <| whenEnabled s.isIdle s <|
    match s.cmdPort with
    | none => .next s
    | some bytes => whenRecord bytes s <| .next (acceptRecord bytes s)

/-- GET_STATE accepted (R147): the record is latched and the snapshot follows. -/
def execGetState (p : Payload) (s : State) : Result :=
  whenValid s <| whenEnabled s.isIdle s <| whenRecord (encodeRecord s.cfg.opGet p) s <|
    .next (latchRecord (encodeRecord s.cfg.opGet p) .snap s)

/-- SET_STATE accepted (R148): the record is latched; the batch, the updates, the clearing of the mask and the
snapshot follow. -/
def execSetState (p : Payload) (s : State) : Result :=
  whenValid s <| whenEnabled s.isIdle s <| whenRecord (encodeRecord s.cfg.opSet p) s <|
    .next (latchRecord (encodeRecord s.cfg.opSet p) .batch s)

/-- RESET_REQ filtered (R150). -/
def execResetReq (p : Payload) (s : State) : Result :=
  whenValid s <| whenEnabled s.isIdle s <| whenRecord (encodeRecord s.cfg.opReset p) s <| .next (requestReset s)

/-- BOOT_REQ filtered (R150). -/
def execBootReq (p : Payload) (s : State) : Result :=
  whenValid s <| whenEnabled s.isIdle s <| whenRecord (encodeRecord s.cfg.opBoot p) s <| .next (requestBoot s)

/-- UNRECOGNIZED accepted (R149): the record is latched with its own opcode and the snapshot follows. -/
def execUnrecognized (op : Byte) (p : Payload) (s : State) : Result :=
  whenValid s <| whenEnabled s.isIdle s <| whenRecord (encodeRecord op p) s <|
    .next (latchRecord (encodeRecord op p) .snap s)

/-- The batch for axis `k` (R153): a selected axis takes its slot's request, an unselected one keeps its registers. -/
def batchAxis (k : Nat) (s : State) : State :=
  if selects (s.cmd.read 1) k then
    s.setAxis k
      (commandedRegs (s.cfg.axis k) (s.axis k) (zext16 (s.cmd.read16 (cmdFreqOffset k)))
        (s.cmd.read16 (cmdPosOffset k)))
  else s

/-- BATCH (R153): one guarded section over all axes, then `UPD(0)`. -/
def batchAll (s : State) : State := (guardExit (forAxes s.cfg.nAx batchAxis (guardEnter s))).setPhase (.upd 0)

/-- The foreground step BATCH. -/
def execBatch (s : State) : Result :=
  whenValid s <| whenEnabled (decide (s.fgPc = .batch)) s <| .next (batchAll s)

/-- CLRMASK (R156): zero byte 1 of the latched record, then `SNAP`. -/
def clearMask (s : State) : State := { s with cmd := s.cmd.write 1 0#8, fgPc := .snap }

/-- The foreground step CLRMASK. -/
def execClrMask (s : State) : Result :=
  whenValid s <| whenEnabled (decide (s.fgPc = .clr)) s <| .next (clearMask s)

/-- The two status fields of axis `k` (R158, R84). -/
def snapshotAxis (k : Nat) (s : State) : State :=
  { s with
    status := (s.status.write16 (statusFreqOffset k) (s.axis k).freq).write16 (statusPosOffset k) (s.axis k).pos }

/-- The echoed opcode (R157, R158). -/
def echoOpcode (s : State) : State := { s with status := s.status.write 0 (s.cmd.read 0) }

/-- SNAPSHOT (R158): echo the opcode, report every axis in one guarded section, raise STATUS_VALID, go idle. -/
def snapshotAll (s : State) : State :=
  { guardExit (forAxes s.cfg.nAx snapshotAxis (guardEnter (echoOpcode s))) with statusValid := true, fgPc := .idle }

/-- The foreground step SNAPSHOT. -/
def execSnapshot (s : State) : Result :=
  whenValid s <| whenEnabled (decide (s.fgPc = .snap)) s <| .next (snapshotAll s)

end Sys2Proof.Machine
end

