-- ==== Sys2Proof/Machine/Channel.lean ====
section
/-! DEFINITION. The operations on a pulse generator channel: DERIVE (R101 to R112), ENABLE and DISABLE (R120 to R126). -/

namespace Sys2Proof.Machine

/-- `cs_code[c][k]` (R8). -/
def csCodeAt (ch : ChannelCfg) (k : Nat) : Byte := ch.csCode.getD k 0#8

/-- ENABLE(c) (R121): or the code of the current prescaler index into `CTL`, then mark the channel on. -/
def enableChannel (c : Nat) (s : State) : State :=
  (s.output (.ctl c ((s.channel c).ctl ||| csCodeAt (s.cfg.channel c) (s.channel c).psc))).setOn c true

/-- DISABLE(c) (R123): clear the clock-select field, then mark the channel off. -/
def disableChannel (c : Nat) (s : State) : State :=
  (s.output (.ctl c ((s.channel c).ctl &&& ~~~(s.cfg.channel c).csMask))).setOn c false

/-- `CH[c].psc <- k`, then `CH[c].top <- t` (R105). -/
def setParameters (c k t : Nat) (s : State) : State :=
  (s.output (.psc c k)).output (.top c (BitVec.ofNat 16 t))

/-- The writes of DERIVE(c, f) (R101): DISABLE alone for `f = 0` (R102); otherwise DISABLE, then the prescaler index,
then the reload value (R105). -/
def deriveChannel (c f : Nat) (s : State) : State :=
  if f = 0 then disableChannel c s
  else
    setParameters c (derivePsc s.cfg.fClk (s.cfg.channel c) f) (deriveTop s.cfg.fClk (s.cfg.channel c) f)
      (disableChannel c s)

/-- The result of DERIVE(c, f), which no register holds: 0 for `f = 0` (R102), the achieved frequency otherwise (R106). -/
def deriveResult (cfg : Cfg) (c f : Nat) : Nat :=
  if f = 0 then 0 else deriveAchieved cfg.fClk (cfg.channel c) f

/-- The operation DERIVE; its result goes to the caller, the axis updater (R171). -/
def execDerive (c : Nat) (f : Word16) (s : State) : Result :=
  whenValid s <| whenIndex c s <| .next (deriveChannel c (zext16 f) s)

/-- The operation ENABLE. -/
def execEnable (c : Nat) (s : State) : Result := whenValid s <| whenIndex c s <| .next (enableChannel c s)

/-- The operation DISABLE. -/
def execDisable (c : Nat) (s : State) : Result := whenValid s <| whenIndex c s <| .next (disableChannel c s)

end Sys2Proof.Machine
end

