-- ==== Sys2Proof/Machine/Tracker.lean ====
section
/-! DEFINITION. The pulse-counter accumulator and the auto-stop: OVF and TRACK (R130 to R140). -/

namespace Sys2Proof.Machine

/-- OVF(c, g) (R131): a genuine event is latched for the bound axis, a spurious one does nothing (R135). -/
def overflowEvent (c : Nat) (g : Bool) (s : State) : State := if g then latchEvent (boundAxis s.cfg c) s else s

/-- The accumulator (R133): one step in the direction of the flag. -/
def countStep (i : Nat) (s : State) : State := s.setPos i (countedPos (s.cfg.axis i) (s.axis i))

/-- The auto-stop (R134): zero the frequency, disable the channel, return the direction line to its inactive level, in
that order. -/
def autoStop (i : Nat) (s : State) : State :=
  (disableChannel (s.cfg.chan i) (s.setFreq i 0#16)).output (.line i (s.cfg.axis i).dirIdle)

/-- Stop when the resulting position equals the target (R134). -/
def stopAtTarget (i : Nat) (s : State) : State := if (s.axis i).pos = (s.axis i).target then autoStop i s else s

/-- TRACK(i) (R132): clear the latch, count, stop at the target. -/
def trackAxis (i : Nat) (s : State) : State := stopAtTarget i (countStep i (enterTracker i s))

/-- The event OVF. A genuine event of a stopped channel is not raised (R208). -/
def execOvf (c : Nat) (g : Bool) (s : State) : Result :=
  whenValid s <| whenIndex c s <| whenEnabled (overflowEnabled c g s) s <| .next (overflowEvent c g s)

/-- The tracker step TRACK; `IE == 0` holds it back (R35). -/
def execTrack (i : Nat) (s : State) : Result :=
  whenValid s <| whenIndex i s <| whenEnabled (trackEnabled i s) s <| .next (trackAxis i s)

end Sys2Proof.Machine
end

