-- ==== Sys2Proof/Machine/Updater.lean ====
section
/-! DEFINITION. The axis updater: UPDATE_AXIS (R170 to R177). -/

namespace Sys2Proof.Machine

/-- The branch on the result of the derivation (R171, R173): a result of 0 disables the channel and leaves the direction
line; otherwise the line takes the direction flag, then the channel is enabled (R175). -/
def startOrStop (i fa : Nat) (s : State) : State :=
  if fa = 0 then disableChannel (s.cfg.chan i) s
  else enableChannel (s.cfg.chan i) (s.output (.line i (s.axis i).dir))

/-- UPDATE_AXIS between the guards, for the clamped frequency `fin` (R171): derive, store the achieved frequency, start or
stop the channel, clear the dirty flag last. -/
def resyncAxis (i fin : Nat) (s : State) : State :=
  let fa := deriveResult s.cfg (s.cfg.chan i) fin
  (startOrStop i fa ((deriveChannel (s.cfg.chan i) fin s).setFreq i (BitVec.ofNat 16 fa))).setDirty i false

/-- UPDATE_AXIS(i) (R171), one guarded section (R172), with the updater's own clamp (R174). -/
def updateAxis (i : Nat) (s : State) : State :=
  guardExit (resyncAxis i (clampFreq (s.cfg.axis i) (zext16 (s.axis i).freq)) (guardEnter s))

/-- The foreground step UPDATE_AXIS: R171, then `FG_PC <- UPD(i + 1)` (R155). -/
def execUpdateAxis (i : Nat) (s : State) : Result :=
  whenValid s <| whenIndex i s <| whenEnabled (updateEnabled i s) s <| .next ((updateAxis i s).setPhase (.upd (i + 1)))

end Sys2Proof.Machine
end

