-- ==== Sys2Proof/Machine/Dispatch.lean ====
section
/-! DEFINITION. The meaning of every operation of spec/opcode_table.json, one arm per constructor of `Instr`. -/

namespace Sys2Proof.Machine

def exec (i : Instr) (s : State) : Host.Outcome State Fault Refusal :=
  match i with
  -- command opcodes (43_command_dispatcher.md)
  | .getState p => Sys2Proof.Machine.execGetState p s
  | .setState p => Sys2Proof.Machine.execSetState p s
  | .resetReq p => Sys2Proof.Machine.execResetReq p s
  | .bootReq p => Sys2Proof.Machine.execBootReq p s
  | .unrecognized op p => Sys2Proof.Machine.execUnrecognized op p s
  -- foreground steps (43_command_dispatcher.md, 44_axis_updater.md)
  | .accept => Sys2Proof.Machine.execAccept s
  | .batch => Sys2Proof.Machine.execBatch s
  | .updateAxis k => Sys2Proof.Machine.execUpdateAxis k s
  | .clrMask => Sys2Proof.Machine.execClrMask s
  | .snapshot => Sys2Proof.Machine.execSnapshot s
  -- internal operations (40_derivation.md, 41_channel_onoff.md, 45_guard_synchronizer.md)
  | .derive c f => Sys2Proof.Machine.execDerive c f s
  | .enable c => Sys2Proof.Machine.execEnable c s
  | .disable c => Sys2Proof.Machine.execDisable c s
  | .guardEnter => Sys2Proof.Machine.execGuardEnter s
  | .guardExit => Sys2Proof.Machine.execGuardExit s
  -- the overflow event and the tracker step (42_position_tracker.md)
  | .ovf c g => Sys2Proof.Machine.execOvf c g s
  | .track k => Sys2Proof.Machine.execTrack k s

end Sys2Proof.Machine
end

