-- ==== Sys2Proof/Machine/Sequencer.lean ====
section
/-! DEFINITION. Whose step is next, and which operation it runs (R186, R187): the turns of the foreground, of the trackers
and of the environment. Each turn starts with the strobes of the turn before lowered (R45) and no output written (R73). -/

namespace Sys2Proof.Machine

/-- The UPD step at `UPD(k)` (R155): past the last axis the mask is cleared next; a dirty axis is updated; any other is
skipped. -/
def updTurn (k : Nat) (s : State) : Result :=
  if k = s.cfg.nAx then .next (s.setPhase .clr)
  else if (s.axis k).dirty then exec (.updateAxis k) s
  else .next (s.setPhase (.upd (k + 1)))

/-- The one step of the foreground agent in its phase (R186). In phase IDLE it is ACCEPT, the core's fetch: with no record
on the port the foreground waits (R220). -/
def foregroundStep (s : State) : Result :=
  match s.fgPc with
  | .idle => exec .accept s
  | .batch => exec .batch s
  | .upd k => updTurn k s
  | .clr => exec .clrMask s
  | .snap => exec .snapshot s

/-- The foreground agent's turn. -/
def foregroundTurn (s : State) : Result := whenValid s (foregroundStep s.startTurn)

/-- `rst` (R230, R232): every register takes its reset value, in no order. The configuration is not changed (R232); the
record on the port and the inputs to come belong to the outside. -/
def assertReset (s : State) : State := { State.resetOf s.cfg with cmdPort := s.cmdPort, inputs := s.inputs }

/-- The boot step `IE <- 1` (R233), in phase IDLE only: the firmware does not change `IE` during a dispatch (R249). -/
def bootStep (s : State) : State := if s.isIdle then { s with ie := true } else s

/-- The transport presents a record; it holds one record until the core takes it (R44, R248). -/
def presentRecord (bytes : List Byte) (s : State) : State :=
  match s.cmdPort with
  | none => { s with cmdPort := some bytes }
  | some _ => s

/-- The turn the oldest input asks for. -/
def inputTurn (inp : Input) (s : State) : Result :=
  match inp with
  | .present bytes => whenValid s (.next (presentRecord bytes s.startTurn))
  | .overflow c g => exec (.ovf c g) s.startTurn
  | .tracker i => exec (.track i) s.startTurn
  | .foreground => foregroundTurn s
  | .rst => whenValid s (.next (assertReset s))
  | .boot => whenValid s (.next (bootStep s.startTurn))

/-- The turn when no input asks for one: an enabled tracker, the lowest axis first, then the foreground. DESIGN CHOICE
(log entry 3): one of the schedules R187 admits; the inputs of a state give the others. -/
def defaultTurn (s : State) : Result :=
  match s.nextTracker with
  | some i => exec (.track i) s.startTurn
  | none => foregroundTurn s

/-- The operation that runs when the foreground agent moves in phase IDLE: the command decoded from the record on the
port. -/
def State.fetched (s : State) : Option Instr :=
  match s.cmdPort with
  | none => none
  | some bytes =>
    match decode s.cfg bytes with
    | .ok i => some i
    | .error _ => none

/-- `n` turns of the foreground agent and of no other (the `RUN` of R92 takes them until phase IDLE). -/
def runForeground : Nat → State → Result
  | 0, s => .next s
  | n + 1, s =>
    match foregroundTurn s with
    | .next t => runForeground n t
    | .fault r => .fault r
    | .refused r => .refused r

/-- A sequence of inputs, one turn each, in order. -/
def runInputs : List Input → State → Result
  | [], s => .next s
  | inp :: rest, s =>
    match inputTurn inp s with
    | .next t => runInputs rest t
    | .fault r => .fault r
    | .refused r => .refused r

end Sys2Proof.Machine
end

