-- ==== Sys2Proof/Machine/Step.lean ====
section
/-! DEFINITION. One step of the machine (R186): the oldest input says whose turn it is. -/

namespace Sys2Proof.Machine

/-- One atomic step (R16, R70, R186). -/
def step (s : State) : Host.Outcome State Fault Refusal :=
  match s.inputs with
  | [] => defaultTurn s
  | inp :: rest => inputTurn inp { s with inputs := rest }

/-- The state in which the next step accepts the record of a table word: the record stands on the command port, the
foreground is idle, and it moves next (log entry 5). -/
def State.withFetchWord (s : State) (nbits w : Nat) : State :=
  { s with
    fgPc := .idle
    cmdPort := some (tableBytes s.cfg.cmdLen nbits w)
    inputs := .foreground :: s.inputs }

end Sys2Proof.Machine
end

