-- ==== Sys2Proof/Safety.lean ====
section
/-! DEFINITION. What the rules keep in every state reachable from reset (R28, R31 to R34, R109), as one invariant. -/

namespace Sys2Proof.Machine

/-- INV-A (R28): at its target an axis has frequency 0. -/
abbrev State.InvA (s : State) (i : Nat) : Prop := (s.axis i).pos = (s.axis i).target → (s.axis i).freq = 0#16

/-- INV-B (R28): while no update is pending, the frequency is non-zero exactly when the channel is on. -/
abbrev State.InvB (s : State) (i : Nat) : Prop :=
  (s.axis i).dirty = false → ((s.axis i).freq ≠ 0#16 ↔ (s.channel (s.cfg.chan i)).isOn = true)

/-- INV-C (R28): a non-zero frequency comes with the direction towards the target. -/
abbrev State.InvC (s : State) (i : Nat) : Prop :=
  (s.axis i).freq ≠ 0#16 →
    ((s.axis i).dir = (s.cfg.axis i).dirPos ↔ sext16 (s.axis i).pos < sext16 (s.axis i).target)

/-- The pending frequency is clamped (R28: `AX[i].freq <= fmax[i]` whenever `AX[i].dirty == 1`). -/
abbrev State.PendingClamped (s : State) (i : Nat) : Prop :=
  (s.axis i).dirty = true → zext16 (s.axis i).freq ≤ (s.cfg.axis i).fmax

/-- The foreground has still to update axis `i`: its phase is `UPD(k)` with `k <= i` (R155). -/
def State.awaitsUpdate (s : State) (i : Nat) : Bool :=
  match s.fgPc with
  | .upd k => decide (k ≤ i)
  | .idle => false
  | .batch => false
  | .clr => false
  | .snap => false

/-- A dirty axis is one the foreground has still to update (R155). -/
abbrev State.DirtyAwaited (s : State) (i : Nat) : Prop := (s.axis i).dirty = true → s.awaitsUpdate i = true

/-- The on flag mirrors the clock-select field (R33), a non-zero field is the code of the current index, and the other
bits of `CTL` are as the hardware-init layer left them (R34). -/
abbrev State.FieldKept (s : State) (c : Nat) : Prop :=
  ((s.channel c).isOn = true ↔ s.clocked c = true) ∧
    (s.clocked c = true → s.clockField c = csCodeAt (s.cfg.channel c) (s.channel c).psc) ∧
      (s.channel c).ctl &&& ~~~(s.cfg.channel c).csMask = (s.cfg.channel c).ctlInit

/-- The reload value never exceeds the counter (R32), and is not 0 while the channel is on (R32, R109). -/
abbrev State.ReloadKept (s : State) (c : Nat) : Prop :=
  (s.channel c).top.toNat ≤ (s.cfg.channel c).cmax ∧ ((s.channel c).isOn = true → 1 ≤ (s.channel c).top.toNat)

/-- The conditions on axis `i` and its channel. -/
abbrev State.AxisInv (s : State) (i : Nat) : Prop :=
  s.InvA i ∧ s.InvB i ∧ s.InvC i ∧ s.PendingClamped i ∧ s.DirtyAwaited i ∧ s.FieldKept (s.cfg.chan i) ∧
    s.ReloadKept (s.cfg.chan i)

/-- The invariant of the core: a state of a started core (its registers in range, its buffers canonical), and the
conditions on every axis. -/
abbrev State.Inv (s : State) : Prop := s.valid = true ∧ ∀ i, i < s.cfg.nAx → s.AxisInv i

/-- Two states give the pulse generators and the direction outputs the same values (R45, R206). -/
abbrev State.SameOutputs (s t : State) : Prop :=
  (∀ c, (s.channel c).ctl = (t.channel c).ctl ∧ (s.channel c).psc = (t.channel c).psc ∧
    (s.channel c).top = (t.channel c).top) ∧
    ∀ i, s.line i = t.line i

/-- A safe run of the core: the step answers a next state in which the invariant holds. -/
def SafeStep (s : State) : Prop := ∃ t, step s = .next t ∧ t.Inv

/-- The conditions R235 puts on the state a model starts from. -/
abbrev State.Launch (s : State) : Prop :=
  s.Inv ∧ s.fgPc = .idle ∧ s.ie = true ∧
    ∀ i, i < s.cfg.nAx → (s.axis i).dirty = false ∧ s.pending i = false ∧ s.overran i = false

end Sys2Proof.Machine
end

