-- ==== Sys2Proof/Certificates/Slice0/Obligations.lean ====
section
/-! DEFINITION. The statements for the provers (OBLIGATIONS.json). A frame is written `t = { s with f := t.f, .. }`: every
field of the state that is not named there is as before. `outputs` is the model's own list of the writes seen from outside
(log entry 14); the frames of the operations that write an output leave it open, and `ChannelAndStopWritesInOrder`,
`UpdateAxisWritesInOrder` and `StepShowsItsOutputWrites` say what it holds. -/

open Sys2Proof Sys2Proof.Machine

/-! ## Configuration, reset and boot -/

/-- R46: under every accepted configuration, what every register holds after reset, and `IE` after the boot step. -/
def Obligations.ResetHoldsTheTable : Prop :=
  ∀ cfg : Cfg, cfg.accepted = true →
    (∀ i, i < cfg.nAx →
      ((State.resetOf cfg).axis i).freq = 0#16 ∧
      sext16 ((State.resetOf cfg).axis i).pos = (cfg.axis i).home ∧
      sext16 ((State.resetOf cfg).axis i).target = (cfg.axis i).home ∧
      ((State.resetOf cfg).axis i).dir = (cfg.axis i).dirPos ∧
      ((State.resetOf cfg).axis i).dirty = false ∧
      (State.resetOf cfg).line i = (cfg.axis i).dirIdle ∧
      (State.resetOf cfg).pending i = false ∧
      (State.resetOf cfg).overran i = false) ∧
    (∀ c, c < cfg.nAx →
      ((State.resetOf cfg).channel c).psc = 0 ∧
      ((State.resetOf cfg).channel c).top = 0#16 ∧
      ((State.resetOf cfg).channel c).isOn = false ∧
      ((State.resetOf cfg).channel c).ctl &&& (cfg.channel c).csMask = 0#8 ∧
      ((State.resetOf cfg).channel c).ctl = (cfg.channel c).ctlInit) ∧
    (State.resetOf cfg).ie = false ∧
    (State.resetOf cfg).savedIe = false ∧
    (State.resetOf cfg).fgPc = .idle ∧
    (∀ a, (State.resetOf cfg).cmd.read a = 0#8) ∧
    (∀ a, (State.resetOf cfg).status.read a = 0#8) ∧
    (State.resetOf cfg).statusValid = false ∧
    ∃ t, step { State.resetOf cfg with inputs := [.boot] } = .next t ∧ t = { State.resetOf cfg with ie := true }

/-- R230, R232: `rst` puts every register at its reset value and leaves the configuration; that the record on the port
and the inputs to come stay (log entries 3 and 6) and that no output write is listed (log entry 14) is the model's choice. -/
def Obligations.RstRestoresTheResetValues : Prop :=
  ∀ (s : State) (rest : List Input), s.valid = true → s.inputs = .rst :: rest →
    step s = .next { State.resetOf s.cfg with cmdPort := s.cmdPort, inputs := rest }

/-- R233, R249: the boot step sets `IE` in phase IDLE and changes no other register; that it does nothing in another
phase is the model's choice (log entry 9), as is what the start of the turn lowers and empties (log entries 6 and 14). -/
def Obligations.BootStepEnablesTheTrackers : Prop :=
  ∀ (s : State) (rest : List Input), s.valid = true → s.inputs = .boot :: rest →
    (s.fgPc = .idle → step s = .next { s.startTurn with ie := true, inputs := rest }) ∧
    (s.fgPc ≠ .idle → step s = .next { s.startTurn with inputs := rest })

/-- R28, R231, R235: the reset state meets the invariant under every accepted configuration, and after the boot step it is
a launch state. -/
def Obligations.ResetAndBootReachALaunchState : Prop :=
  ∀ cfg : Cfg, cfg.accepted = true →
    (State.resetOf cfg).Inv ∧
    ∃ t, step { State.resetOf cfg with inputs := [.boot] } = .next t ∧ t.Launch

/-- R9, R202: a configuration that is not accepted has no machine: no step and no operation. Accepted is WF1 to WF8 and
the legal values of R8, R46 and R87 (log entry 7). -/
def Obligations.RefusedConfigurationNeverRuns : Prop :=
  ∀ s : State, s.cfg.accepted = false →
    step s = .refused .configNotWellFormed ∧ ∀ i : Instr, exec i s = .refused .configNotWellFormed

/-- R62: an axis or channel index that does not exist cannot arise; the model refuses an operation that has one (log entry
12). -/
def Obligations.MissingIndexIsRefused : Prop :=
  ∀ (s : State) (i : Nat) (f : Word16) (g : Bool), s.valid = true → s.cfg.nAx ≤ i →
    ∀ op ∈ [Instr.updateAxis i, .derive i f, .enable i, .disable i, .ovf i g, .track i],
      exec op s = .refused (.indexOutOfRange i)

/-- R9: the efficient check of WF7, on the critical frequencies only (log entry 7), decides WF7 as R9 words it, over every
frequency up to the bound of each axis. -/
def Obligations.FrequencyRangeCheckIsExact : Prop :=
  ∀ cfg : Cfg, cfg.wf2 = true → cfg.wf3 = true → cfg.wf4 = true → (cfg.wf7 = true ↔ cfg.EveryFrequencyFits)

/-! ## The encodings -/

/-- R81, R87: decoding the record of a well-formed command gives the command back, with every operand at every value. -/
def Obligations.DecodeOfEncodeIsTheCommand : Prop :=
  ∀ (cfg : Cfg) (i : Instr) (bytes : List Byte), cfg.accepted = true → i.wellFormed cfg = true →
    encode cfg i = some bytes → decode cfg bytes = .ok i

/-- R81, R88: whatever decodes is a well-formed command, and its record is the bytes it was decoded from. -/
def Obligations.EncodeOfDecodeIsTheRecord : Prop :=
  ∀ (cfg : Cfg) (i : Instr) (bytes : List Byte), decode cfg bytes = .ok i →
    i.wellFormed cfg = true ∧ encode cfg i = some bytes

/-- R80, R88: bytes are a command record exactly when they have the one length of the format; no opcode, no mask and no
field value is illegal. -/
def Obligations.OnlyTheLengthIsRejected : Prop :=
  ∀ (cfg : Cfg) (bytes : List Byte),
    (bytes.length = 2 + 4 * cfg.nAx → ∃ i, decode cfg bytes = .ok i) ∧
    (bytes.length ≠ 2 + 4 * cfg.nAx → decode cfg bytes = .error (.recordLength bytes.length))

/-- R87: byte 0 selects the operation; the recognised bytes are pairwise different and not 99, and the defaults are 1, 2,
200 and 201. -/
def Obligations.OpcodeByteSelectsTheOperation : Prop :=
  (∀ (cfg : Cfg) (p : Payload), cfg.accepted = true → p.fits cfg = true →
    [cfg.opGet, cfg.opSet, cfg.opReset, cfg.opBoot, 99#8].Nodup ∧
    decode cfg (encodeRecord cfg.opGet p) = .ok (.getState p) ∧
    decode cfg (encodeRecord cfg.opSet p) = .ok (.setState p) ∧
    decode cfg (encodeRecord cfg.opReset p) = .ok (.resetReq p) ∧
    decode cfg (encodeRecord cfg.opBoot p) = .ok (.bootReq p) ∧
    ∀ op, op ≠ cfg.opGet → op ≠ cfg.opSet → op ≠ cfg.opReset → op ≠ cfg.opBoot →
      decode cfg (encodeRecord op p) = .ok (.unrecognized op p)) ∧
  Cfg.test.opGet = 0x01#8 ∧ Cfg.test.opSet = 0x02#8 ∧ Cfg.test.opReset = 0xC8#8 ∧ Cfg.test.opBoot = 0xC9#8

/-- R81: where the fields of a command record stand: the opcode at 0, the mask at 1, the frequency of slot `k` at `2 + 4k`
and its position at `4 + 4k`, little-endian. -/
def Obligations.RecordFieldsStandAtTheirOffsets : Prop :=
  ∀ (cfg : Cfg) (op : Byte) (p : Payload), p.fits cfg = true →
    (encodeRecord op p).length = 2 + 4 * cfg.nAx ∧
    (encodeRecord op p)[0]? = some op ∧
    (encodeRecord op p)[1]? = some p.mask ∧
    ∀ k sl, p.slots[k]? = some sl →
      ((encodeRecord op p)[2 + 4 * k]?.map BitVec.toNat = some (sl.freq.toNat % 256)) ∧
      ((encodeRecord op p)[3 + 4 * k]?.map BitVec.toNat = some (sl.freq.toNat / 256)) ∧
      ((encodeRecord op p)[4 + 4 * k]?.map BitVec.toNat = some (sl.pos.toNat % 256)) ∧
      ((encodeRecord op p)[5 + 4 * k]?.map BitVec.toNat = some (sl.pos.toNat / 256))

/-- R81, R87: records written out from the format decode to the commands they stand for: the record of R94, that of V35,
and the one-byte words of V31, V36 and V37, which are decoded under Cfg-T (log entry 1). -/
def Obligations.WrittenOutRecordsDecode : Prop :=
  decode Cfg.test [0x02#8, 0x01#8, 0x10#8, 0x27#8, 0xB0#8, 0x04#8, 0#8, 0#8, 0#8, 0#8, 0#8, 0#8, 0#8, 0#8] =
    .ok (.setState ⟨0x01#8, [⟨10000#16, 1200#16⟩, ⟨0#16, 0#16⟩, ⟨0#16, 0#16⟩]⟩) ∧
  decode Cfg.test [0x63#8, 0x07#8, 0xD2#8, 0x04#8, 0xF9#8, 0xFF#8, 1#8, 0#8, 1#8, 0#8, 2#8, 0#8, 2#8, 0#8] =
    .ok (.unrecognized 99#8 ⟨0x07#8, [⟨1234#16, -7#16⟩, ⟨1#16, 1#16⟩, ⟨2#16, 2#16⟩]⟩) ∧
  decodeTableWord 8 0x01 = some (.getState ⟨0#8, [⟨0#16, 0#16⟩, ⟨0#16, 0#16⟩, ⟨0#16, 0#16⟩]⟩) ∧
  decodeTableWord 8 0xC8 = some (.resetReq ⟨0#8, [⟨0#16, 0#16⟩, ⟨0#16, 0#16⟩, ⟨0#16, 0#16⟩]⟩) ∧
  decodeTableWord 8 0xC9 = some (.bootReq ⟨0#8, [⟨0#16, 0#16⟩, ⟨0#16, 0#16⟩, ⟨0#16, 0#16⟩]⟩)

/-- R14, R63: a 2-byte store puts bits 7:0 at the offset and bits 15:8 after it, reads back, and leaves every other byte;
a 1-byte store likewise. That the stores keep the canonical form of the buffer rests on the model's own form (log entry
8). -/
def Obligations.RecordStoresReadBack : Prop :=
  ∀ (m : Memory) (off : Nat) (b : Byte) (v : Word16), m.wf = true →
    (m.write off b).read off = b ∧
    (∀ a, a ≠ off → (m.write off b).read a = m.read a) ∧
    (m.write off b).wf = true ∧
    (m.write16 off v).read16 off = v ∧
    ((m.write16 off v).read off).toNat = v.toNat % 256 ∧
    ((m.write16 off v).read (off + 1)).toNat = v.toNat / 256 ∧
    (∀ a, a ≠ off → a ≠ off + 1 → (m.write16 off v).read a = m.read a) ∧
    (m.write16 off v).wf = true ∧
    (m.read16 off).toNat = (m.read off).toNat + 256 * (m.read (off + 1)).toNat

/-! ## The timer parameter derivator -/

/-- R101: DERIVE. For `f = 0` the channel is disabled and nothing else; otherwise it is disabled, the prescaler index is
the first whose reload value `F div (s*f*ratio)` fits the counter (the last when none does), and the reload value is that
one, clamped. The result is the frequency achieved by the pair written. -/
def Obligations.DeriveWritesTheFirstFittingPair : Prop :=
  ∀ (s : State) (c : Nat) (f : Word16), s.valid = true → c < s.cfg.nAx →
    ∃ t, exec (.derive c f) s = .next t ∧
      t = { s with ch := t.ch, outputs := t.outputs } ∧
      (∀ d, d ≠ c → t.channel d = s.channel d) ∧
      (t.channel c).isOn = false ∧
      (t.channel c).ctl = (s.channel c).ctl &&& ~~~(s.cfg.channel c).csMask ∧
      (f.toNat = 0 →
        (t.channel c).psc = (s.channel c).psc ∧ (t.channel c).top = (s.channel c).top ∧
        deriveResult s.cfg c f.toNat = 0) ∧
      (f.toNat ≠ 0 →
        ∃ p, (s.cfg.channel c).ratios[(t.channel c).psc]? = some p ∧
          (∀ j q, j < (t.channel c).psc → (s.cfg.channel c).ratios[j]? = some q →
            (s.cfg.channel c).cmax < s.cfg.fClk / ((s.cfg.channel c).scale * f.toNat * q)) ∧
          (s.cfg.fClk / ((s.cfg.channel c).scale * f.toNat * p) ≤ (s.cfg.channel c).cmax ∨
            (t.channel c).psc + 1 = (s.cfg.channel c).ratios.length) ∧
          (t.channel c).top.toNat =
            min (s.cfg.fClk / ((s.cfg.channel c).scale * f.toNat * p)) (s.cfg.channel c).cmax ∧
          (1 ≤ (t.channel c).top.toNat →
            deriveResult s.cfg c f.toNat =
              s.cfg.fClk / ((s.cfg.channel c).scale * (t.channel c).top.toNat * p)))

/-- R102: DERIVE of frequency 0 is DISABLE and nothing else, with result 0: the channel ends off and its prescaler index
and reload value are kept. -/
def Obligations.DeriveOfZeroIsDisable : Prop :=
  ∀ (s : State) (c : Nat),
    exec (.derive c 0#16) s = exec (.disable c) s ∧
    deriveResult s.cfg c 0 = 0 ∧
    (s.valid = true → c < s.cfg.nAx →
      ∃ t, exec (.derive c 0#16) s = .next t ∧
        (t.channel c).isOn = false ∧
        (t.channel c).psc = (s.channel c).psc ∧
        (t.channel c).top = (s.channel c).top)

/-- R109: for every request up to the bound of the bound axis the pair is in range and the achieved frequency fits 16 bits
and is not below the request; unclamped, the request lies between the frequencies of `top + 1` and `top`; clamped, the
pair is the largest ratio and the counter's maximum. -/
def Obligations.AchievedFrequencyBounds : Prop :=
  ∀ (cfg : Cfg) (i f : Nat), cfg.accepted = true → i < cfg.nAx → 1 ≤ f → f ≤ (cfg.axis i).fmax →
    ∃ p, (cfg.channel (cfg.chan i)).ratios[derivePsc cfg.fClk (cfg.channel (cfg.chan i)) f]? = some p ∧
      1 ≤ deriveTop cfg.fClk (cfg.channel (cfg.chan i)) f ∧
      deriveTop cfg.fClk (cfg.channel (cfg.chan i)) f ≤ (cfg.channel (cfg.chan i)).cmax ∧
      f ≤ deriveResult cfg (cfg.chan i) f ∧
      deriveResult cfg (cfg.chan i) f ≤ 65535 ∧
      (cfg.fClk / ((cfg.channel (cfg.chan i)).scale * f * p) ≤ (cfg.channel (cfg.chan i)).cmax →
        f * ((cfg.channel (cfg.chan i)).scale * p * deriveTop cfg.fClk (cfg.channel (cfg.chan i)) f) ≤ cfg.fClk ∧
        cfg.fClk < f * ((cfg.channel (cfg.chan i)).scale * p *
          (deriveTop cfg.fClk (cfg.channel (cfg.chan i)) f + 1))) ∧
      ((cfg.channel (cfg.chan i)).cmax < cfg.fClk / ((cfg.channel (cfg.chan i)).scale * f * p) →
        (∀ q ∈ (cfg.channel (cfg.chan i)).ratios, q ≤ p) ∧
        deriveTop cfg.fClk (cfg.channel (cfg.chan i)) f = (cfg.channel (cfg.chan i)).cmax ∧
        deriveResult cfg (cfg.chan i) f =
          cfg.fClk / ((cfg.channel (cfg.chan i)).scale * (cfg.channel (cfg.chan i)).cmax * p))

/-! ## Channel on and off -/

/-- R121: ENABLE ors the code of the current prescaler index into `CTL`, marks the channel on, and touches nothing else. -/
def Obligations.EnableOrsTheCode : Prop :=
  ∀ (s : State) (c : Nat), s.valid = true → c < s.cfg.nAx →
    ∃ t code, exec (.enable c) s = .next t ∧
      (s.cfg.channel c).csCode[(s.channel c).psc]? = some code ∧
      (t.channel c).ctl = (s.channel c).ctl ||| code ∧
      (t.channel c).isOn = true ∧
      (t.channel c).psc = (s.channel c).psc ∧
      (t.channel c).top = (s.channel c).top ∧
      (∀ d, d ≠ c → t.channel d = s.channel d) ∧
      t = { s with ch := t.ch, outputs := t.outputs }

/-- R123: DISABLE clears the clock-select field, marks the channel off, and touches nothing else. -/
def Obligations.DisableClearsTheField : Prop :=
  ∀ (s : State) (c : Nat), s.valid = true → c < s.cfg.nAx →
    ∃ t, exec (.disable c) s = .next t ∧
      (t.channel c).ctl = (s.channel c).ctl &&& ~~~(s.cfg.channel c).csMask ∧
      (t.channel c).isOn = false ∧
      (t.channel c).psc = (s.channel c).psc ∧
      (t.channel c).top = (s.channel c).top ∧
      (∀ d, d ≠ c → t.channel d = s.channel d) ∧
      t = { s with ch := t.ch, outputs := t.outputs }

/-- R122, R126: ENABLE and DISABLE keep every bit of `CTL` outside the clock-select field. -/
def Obligations.UnrelatedControlBitsArePreserved : Prop :=
  ∀ (s t : State) (c : Nat), s.valid = true → c < s.cfg.nAx →
    (exec (.enable c) s = .next t ∨ exec (.disable c) s = .next t) →
    (t.channel c).ctl &&& ~~~(s.cfg.channel c).csMask = (s.channel c).ctl &&& ~~~(s.cfg.channel c).csMask

/-- R124: DISABLE of a channel already off, its field clear, changes no register: both writes store the values already
there. So a second DISABLE changes none. The bits outside the field, the prescaler index and the reload value are kept, so
that an ENABLE after it restores the selection. -/
def Obligations.DisableIsIdempotent : Prop :=
  ∀ (s t : State) (c : Nat), s.valid = true → c < s.cfg.nAx →
    ((s.channel c).isOn = false → s.clockField c = 0#8 →
      ∃ u, exec (.disable c) s = .next u ∧ u = { s with outputs := u.outputs }) ∧
    (exec (.disable c) s = .next t →
      (∃ u, exec (.disable c) t = .next u ∧ u = { t with outputs := u.outputs }) ∧
      (t.channel c).ctl &&& ~~~(s.cfg.channel c).csMask = (s.channel c).ctl &&& ~~~(s.cfg.channel c).csMask ∧
      (t.channel c).psc = (s.channel c).psc ∧
      (t.channel c).top = (s.channel c).top ∧
      ∃ u code, exec (.enable c) t = .next u ∧ (s.cfg.channel c).csCode[(s.channel c).psc]? = some code ∧
        u.clockField c = code)

/-- R73, R105, R134: the order in which the counter and the direction output see DISABLE, ENABLE, DERIVE (disable, then
prescaler index, then reload value) and TRACK (a stop disables the channel, then idles the line; any other step shows
nothing). The list that shows the order is the model's (log entry 14). -/
def Obligations.ChannelAndStopWritesInOrder : Prop :=
  ∀ (s : State) (k : Nat), s.valid = true → k < s.cfg.nAx →
    (∃ t, exec (.disable k) s = .next t ∧ t.outputs = s.outputs ++ [.ctl k (t.channel k).ctl]) ∧
    (∃ t, exec (.enable k) s = .next t ∧ t.outputs = s.outputs ++ [.ctl k (t.channel k).ctl]) ∧
    (∀ f : Word16, ∃ t, exec (.derive k f) s = .next t ∧
      (f = 0#16 → t.outputs = s.outputs ++ [.ctl k (t.channel k).ctl]) ∧
      (f ≠ 0#16 →
        t.outputs = s.outputs ++ [.ctl k (t.channel k).ctl, .psc k (t.channel k).psc, .top k (t.channel k).top])) ∧
    (s.pending k = true → s.ie = true →
      ∃ t, exec (.track k) s = .next t ∧
        ((t.axis k).pos = (t.axis k).target →
          t.outputs =
            s.outputs ++
              [.ctl (s.cfg.chan k) (t.channel (s.cfg.chan k)).ctl, .line k (s.cfg.axis k).dirIdle]) ∧
        ((t.axis k).pos ≠ (t.axis k).target → t.outputs = s.outputs))

/-! ## The guard -/

/-- R181: GUARD_ENTER saves `IE` and clears it. -/
def Obligations.GuardEnterSavesAndClears : Prop :=
  ∀ s : State, s.valid = true → exec .guardEnter s = .next { s with savedIe := s.ie, ie := false }

/-- R182: GUARD_EXIT restores the saved copy; after GUARD_ENTER that is the enable it had before, set or clear. -/
def Obligations.GuardExitRestores : Prop :=
  ∀ s : State, s.valid = true →
    exec .guardExit s = .next { s with ie := s.savedIe } ∧
    ∀ t u, exec .guardEnter s = .next t → exec .guardExit t = .next u → u = { s with savedIe := s.ie }

/-! ## Events and trackers -/

/-- R131: OVF, whatever `IE` is. A genuine event of a clocked channel sets the latch of the bound axis, or its overrun
bit when the latch is set; a spurious event changes nothing. -/
def Obligations.GenuineEventIsLatchedOneDeep : Prop :=
  ∀ (s : State) (i : Nat), s.valid = true → i < s.cfg.nAx →
    exec (.ovf (s.cfg.chan i) false) s = .next s ∧
    (s.clocked (s.cfg.chan i) = true →
      ∃ t, exec (.ovf (s.cfg.chan i) true) s = .next t ∧
        t.pending i = true ∧
        t.overran i = (s.overran i || s.pending i) ∧
        (∀ j, j ≠ i → t.pending j = s.pending j ∧ t.overran j = s.overran j) ∧
        t = { s with pend := t.pend, overrun := t.overrun })

/-- R186, R208: a genuine event of a channel whose clock-select field is 0 does not occur: the model takes no step for it
(log entry 4). -/
def Obligations.StoppedChannelRaisesNothing : Prop :=
  ∀ (s : State) (c : Nat), s.valid = true → c < s.cfg.nAx →
    (s.channel c).ctl &&& (s.cfg.channel c).csMask = 0#8 → exec (.ovf c true) s = .next s

/-- R132: TRACK clears the latch and moves the position by one step, wrapping at the ends of the 16-bit range, in the
direction of the flag; onto the target it zeroes the frequency, disables the channel and idles the direction line. -/
def Obligations.TrackCountsAndStops : Prop :=
  ∀ (s : State) (i : Nat), s.valid = true → i < s.cfg.nAx → s.pending i = true → s.ie = true →
    ∃ t, exec (.track i) s = .next t ∧
      t.pending i = false ∧
      ((s.axis i).dir = (s.cfg.axis i).dirPos →
        (t.axis i).pos.toInt = if (s.axis i).pos.toInt = 32767 then -32768 else (s.axis i).pos.toInt + 1) ∧
      ((s.axis i).dir ≠ (s.cfg.axis i).dirPos →
        (t.axis i).pos.toInt = if (s.axis i).pos.toInt = -32768 then 32767 else (s.axis i).pos.toInt - 1) ∧
      ((t.axis i).pos ≠ (s.axis i).target →
        t.axis i = { s.axis i with pos := (t.axis i).pos } ∧ t = { s with ax := t.ax, pend := t.pend }) ∧
      ((t.axis i).pos = (s.axis i).target →
        t.axis i = { s.axis i with pos := (s.axis i).target, freq := 0#16 } ∧
        t.channel (s.cfg.chan i) =
          { s.channel (s.cfg.chan i) with
            ctl := (s.channel (s.cfg.chan i)).ctl &&& ~~~(s.cfg.channel (s.cfg.chan i)).csMask
            isOn := false } ∧
        t.line i = (s.cfg.axis i).dirIdle ∧
        t = { s with ax := t.ax, pend := t.pend, ch := t.ch, dirline := t.dirline, outputs := t.outputs }) ∧
      (∀ j, j ≠ i → t.axis j = s.axis j ∧ t.line j = s.line j ∧ t.pending j = s.pending j) ∧
      (∀ d, d ≠ s.cfg.chan i → t.channel d = s.channel d)

/-- R35, R132: a tracker whose latch is clear, or any tracker while `IE == 0`, takes no step (log entry 4). -/
def Obligations.TrackerIsHeldBack : Prop :=
  ∀ (s : State) (i : Nat), s.valid = true → i < s.cfg.nAx → (s.pending i = false ∨ s.ie = false) →
    exec (.track i) s = .next s

/-- R212: the tracker steps of two axes commute: every register ends the same in either order. -/
def Obligations.TrackerStepsCommute : Prop :=
  ∀ (s : State) (i j : Nat), s.valid = true → i < s.cfg.nAx → j < s.cfg.nAx → i ≠ j →
    s.pending i = true → s.pending j = true → s.ie = true →
    ∃ a b t u, exec (.track i) s = .next a ∧ exec (.track j) a = .next t ∧
      exec (.track j) s = .next b ∧ exec (.track i) b = .next u ∧ u = { t with outputs := u.outputs }

/-- R136, R138: each tracker step of a running axis brings it one step nearer to its target; at the target it is stopped,
before it is running still. -/
def Obligations.RunningAxisApproachesItsTarget : Prop :=
  ∀ (s : State) (i : Nat), s.Inv → i < s.cfg.nAx → s.running i = true → s.pending i = true → s.ie = true →
    ∃ t, exec (.track i) s = .next t ∧
      ((t.axis i).target.toInt - (t.axis i).pos.toInt).natAbs + 1 =
        ((s.axis i).target.toInt - (s.axis i).pos.toInt).natAbs ∧
      ((t.axis i).pos = (t.axis i).target → t.stopped i = true ∧ t.line i = (s.cfg.axis i).dirIdle) ∧
      ((t.axis i).pos ≠ (t.axis i).target → t.running i = true ∧ (t.axis i).freq = (s.axis i).freq)

/-- R136, R138, R140: a running axis reaches its target after exactly `|target - pos|` genuine events, each serviced
before the next, and stops with the last of them and not before. -/
def Obligations.LegEndsAfterItsDistance : Prop :=
  ∀ (s : State) (i n : Nat), s.Inv → i < s.cfg.nAx → s.running i = true → s.pending i = false → s.ie = true →
    n ≤ ((s.axis i).target.toInt - (s.axis i).pos.toInt).natAbs →
    ∃ t, runInputs (List.replicate n [Input.overflow (s.cfg.chan i) true, Input.tracker i]).flatten s = .next t ∧
      (t.axis i).target = (s.axis i).target ∧
      t.overran i = s.overran i ∧
      t.pending i = false ∧
      ((t.axis i).target.toInt - (t.axis i).pos.toInt).natAbs + n =
        ((s.axis i).target.toInt - (s.axis i).pos.toInt).natAbs ∧
      (n < ((s.axis i).target.toInt - (s.axis i).pos.toInt).natAbs → t.running i = true) ∧
      (n = ((s.axis i).target.toInt - (s.axis i).pos.toInt).natAbs →
        t.stopped i = true ∧ t.line i = (s.cfg.axis i).dirIdle)

/-! ## The command dispatcher -/

/-- R146: ACCEPT takes the record on the port and chooses by its first byte: a reset or bootloader request raises its
strobe, SET_STATE goes to BATCH and every other opcode to SNAP with the record latched. While a dispatch is in progress
the record waits on the port; that ACCEPT then leaves the whole state is the model's choice (log entry 4). -/
def Obligations.AcceptTakesTheRecord : Prop :=
  ∀ (s : State) (bytes : List Byte) (op : Byte), s.valid = true → s.cmdPort = some bytes →
    bytes.length = 2 + 4 * s.cfg.nAx → bytes[0]? = some op →
    (s.fgPc ≠ .idle → exec .accept s = .next s) ∧
    (s.fgPc = .idle →
      ∃ t, exec .accept s = .next t ∧
        (op = s.cfg.opReset → t = { s with cmdPort := none, cmdTake := true, reqReset := true }) ∧
        (op = s.cfg.opBoot → t = { s with cmdPort := none, cmdTake := true, reqBoot := true }) ∧
        (op ≠ s.cfg.opReset → op ≠ s.cfg.opBoot →
          (∀ a, t.cmd.read a = bytes.getD a 0#8) ∧
          t = { s with cmdPort := none, cmdTake := true, cmd := t.cmd,
                       fgPc := if op = s.cfg.opSet then .batch else .snap }))

/-- R80, R146, R202: with no record on the port, or a dispatch in progress, ACCEPT is not enabled, and that nothing changes
then is the model's choice (log entry 4); an idle foreground refuses a record of another length. -/
def Obligations.AcceptWaitsOrRefuses : Prop :=
  ∀ s : State, s.valid = true →
    (s.fgPc ≠ .idle ∨ s.cmdPort = none → exec .accept s = .next s) ∧
    (∀ bytes, s.fgPc = .idle → s.cmdPort = some bytes → bytes.length ≠ 2 + 4 * s.cfg.nAx →
      exec .accept s = .refused (.recordLength bytes.length))

/-- R186: a foreground step in another phase than its own, UPDATE_AXIS of a clean axis, and a command while a dispatch is in
progress are not enabled; that the state is then unchanged is the model's choice (log entry 4). -/
def Obligations.DisabledForegroundStepsChangeNothing : Prop :=
  ∀ s : State, s.valid = true →
    (s.fgPc ≠ .batch → exec .batch s = .next s) ∧
    (s.fgPc ≠ .clr → exec .clrMask s = .next s) ∧
    (s.fgPc ≠ .snap → exec .snapshot s = .next s) ∧
    (∀ i, i < s.cfg.nAx → s.fgPc ≠ .upd i ∨ (s.axis i).dirty = false → exec (.updateAxis i) s = .next s) ∧
    (s.fgPc ≠ .idle → ∀ (op : Byte) (p : Payload),
      ∀ i ∈ [Instr.getState p, .setState p, .resetReq p, .bootReq p, .unrecognized op p], exec i s = .next s)

/-- R80, R202: an idle foreground refuses a command whose record has another number of slots. -/
def Obligations.CommandsOfAnotherLengthAreRefused : Prop :=
  ∀ (s : State) (op : Byte) (p : Payload), s.valid = true → s.fgPc = .idle → p.slots.length ≠ s.cfg.nAx →
    ∀ i ∈ [Instr.getState p, .setState p, .resetReq p, .bootReq p, .unrecognized op p],
      exec i s = .refused (.recordLength (2 + 4 * p.slots.length))

/-- R86, R146: ACCEPT is the operation its record decodes to. That a command opcode's meaning is its accepting step is the
model's choice (log entry 11; R148 gives the whole dispatch). -/
def Obligations.AcceptRunsTheDecodedCommand : Prop :=
  ∀ (s : State) (i : Instr), s.valid = true → s.fgPc = .idle → s.fetched = some i → exec .accept s = exec i s

/-- R86, R146, R186: when the foreground moves in phase IDLE and the record on the port decodes to `i`, the step is `exec i`
at the start of the turn (the strobes lowered, log entry 6; no output written yet, log entry 14), the input consumed; so is
the step of `withFetchWord`, the model's own way to place a record (log entry 5). That the step is `exec` of the decoded
command rests on that command's meaning being its accepting step (log entry 11). -/
def Obligations.StepRunsTheDecodedCommand : Prop :=
  (∀ (s : State) (rest : List Input) (i : Instr), s.valid = true → s.inputs = .foreground :: rest → s.fgPc = .idle →
    s.fetched = some i → step s = exec i ({ s with inputs := rest } : State).startTurn) ∧
  ∀ (s : State) (nbits w : Nat) (i : Instr), s.valid = true →
    decode s.cfg (tableBytes s.cfg.cmdLen nbits w) = .ok i →
    step (s.withFetchWord nbits w) =
      exec i ({ s.withFetchWord nbits w with inputs := s.inputs } : State).startTurn

/-- R186: whose turn a step is, and which operation it runs, at the start of the turn (log entries 6 and 14). The model's
choices: the turn when no input is left (log entry 3), and that a record presented while the port is occupied is not taken
up (log entry 10). -/
def Obligations.StepTakesTheTurnOfItsInput : Prop :=
  ∀ (s u : State) (rest : List Input), s.valid = true → u = ({ s with inputs := rest } : State).startTurn →
    (s.inputs = .foreground :: rest →
      (s.fgPc = .idle → step s = exec .accept u) ∧
      (s.fgPc = .batch → step s = exec .batch u) ∧
      (∀ k, s.fgPc = .upd k → k < s.cfg.nAx → (s.axis k).dirty = true → step s = exec (.updateAxis k) u) ∧
      (s.fgPc = .clr → step s = exec .clrMask u) ∧
      (s.fgPc = .snap → step s = exec .snapshot u)) ∧
    (∀ c g, s.inputs = .overflow c g :: rest → step s = exec (.ovf c g) u) ∧
    (∀ i, s.inputs = .tracker i :: rest → step s = exec (.track i) u) ∧
    (∀ bytes, s.inputs = .present bytes :: rest →
      step s = .next { u with cmdPort := if s.cmdPort = none then some bytes else s.cmdPort }) ∧
    (s.inputs = [] → ∀ i, i < s.cfg.nAx → trackEnabled i s = true → (∀ j, j < i → trackEnabled j s = false) →
      step s = exec (.track i) s.startTurn) ∧
    (s.inputs = [] → (∀ i, i < s.cfg.nAx → trackEnabled i s = false) →
      step s = step { s with inputs := [.foreground] })

/-- R155: the UPD step at `UPD(k)`: past the last axis it goes to CLR; a dirty axis is updated and a clean one skipped,
and both go to `UPD(k + 1)`. That UPDATE_AXIS itself writes that phase (log entry 11) and that the turn starts with the
strobes lowered and no output written (log entries 6 and 14) is the model's choice. -/
def Obligations.UpdPhasesVisitEveryAxis : Prop :=
  ∀ (s : State) (rest : List Input) (k : Nat), s.valid = true → s.inputs = .foreground :: rest → s.fgPc = .upd k →
    (k = s.cfg.nAx → step s = .next { s.startTurn with inputs := rest, fgPc := .clr }) ∧
    (k ≠ s.cfg.nAx → (s.axis k).dirty = false →
      step s = .next { s.startTurn with inputs := rest, fgPc := .upd (k + 1) }) ∧
    (k ≠ s.cfg.nAx → (s.axis k).dirty = true →
      ∃ t, step s = .next t ∧
        exec (.updateAxis k) ({ s with inputs := rest } : State).startTurn = .next t ∧ t.fgPc = .upd (k + 1))

/-- R147, R158: GET_STATE: the record is latched and the next foreground step is SNAPSHOT, which echoes the opcode and
reports every axis; nothing else changes. That `exec` of GET_STATE is its accepting step (R146), which empties the port and
raises `cmd_take`, is the model's choice (log entry 11). -/
def Obligations.GetStateReportsEveryAxis : Prop :=
  ∀ (s : State) (p : Payload), s.valid = true → s.fgPc = .idle → p.fits s.cfg = true →
    ∃ t u, exec (.getState p) s = .next t ∧
      (∀ a, t.cmd.read a = (encodeRecord s.cfg.opGet p).getD a 0#8) ∧
      t = { s with cmdPort := none, cmdTake := true, cmd := t.cmd, fgPc := .snap } ∧
      exec .snapshot t = .next u ∧
      u.status.read 0 = s.cfg.opGet ∧
      (∀ k, k < s.cfg.nAx →
        u.status.read16 (1 + 4 * k) = (s.axis k).freq ∧ u.status.read16 (3 + 4 * k) = (s.axis k).pos) ∧
      u = { t with status := u.status, statusValid := true, savedIe := s.ie, fgPc := .idle }

/-- R149, R158: UNRECOGNIZED: as GET_STATE, but the status echoes the unrecognised byte; mask and slots have no effect on
any axis. That `exec` of it is its accepting step (R146), which empties the port and raises `cmd_take`, is the model's
choice (log entry 11). -/
def Obligations.UnrecognizedReportsEveryAxis : Prop :=
  ∀ (s : State) (op : Byte) (p : Payload), s.valid = true → s.fgPc = .idle → p.fits s.cfg = true →
    s.cfg.recognises op = false →
    ∃ t u, exec (.unrecognized op p) s = .next t ∧
      (∀ a, t.cmd.read a = (encodeRecord op p).getD a 0#8) ∧
      t = { s with cmdPort := none, cmdTake := true, cmd := t.cmd, fgPc := .snap } ∧
      exec .snapshot t = .next u ∧
      u.status.read 0 = op ∧
      (∀ k, k < s.cfg.nAx →
        u.status.read16 (1 + 4 * k) = (s.axis k).freq ∧ u.status.read16 (3 + 4 * k) = (s.axis k).pos) ∧
      u = { t with status := u.status, statusValid := true, savedIe := s.ie, fgPc := .idle }

/-- R150: RESET_REQ and BOOT_REQ bypass the core: the record is consumed, the strobe is raised, and no register changes.
That `exec` of them is their accepting step (R146), which empties the port and raises `cmd_take`, is the model's choice
(log entry 11). -/
def Obligations.FilteredOpcodesBypassTheCore : Prop :=
  ∀ (s : State) (p : Payload), s.valid = true → s.fgPc = .idle → p.fits s.cfg = true →
    exec (.resetReq p) s = .next { s with cmdPort := none, cmdTake := true, reqReset := true } ∧
    exec (.bootReq p) s = .next { s with cmdPort := none, cmdTake := true, reqBoot := true }

/-- R146, R148: SET_STATE accepted: the record is latched whole and the batch is next. That `exec` of SET_STATE is its
accepting step, which empties the port and raises `cmd_take`, is the model's choice (log entry 11; R148 gives the whole
dispatch). -/
def Obligations.SetStateStartsTheBatch : Prop :=
  ∀ (s : State) (p : Payload), s.valid = true → s.fgPc = .idle → p.fits s.cfg = true →
    ∃ t, exec (.setState p) s = .next t ∧
      (∀ a, t.cmd.read a = (encodeRecord s.cfg.opSet p).getD a 0#8) ∧
      t = { s with cmdPort := none, cmdTake := true, cmd := t.cmd, fgPc := .batch }

/-- R153: BATCH applies the latched command to every selected axis in one guarded section: the clamped frequency, the
target, the direction towards it, the dirty flag; at equality the frequency is 0 and the direction kept. -/
def Obligations.BatchAppliesTheCommand : Prop :=
  ∀ s : State, s.valid = true → s.fgPc = .batch →
    ∃ t, exec .batch s = .next t ∧
      t = { s with ax := t.ax, savedIe := s.ie, fgPc := .upd 0 } ∧
      ∀ k, k < s.cfg.nAx →
        ((s.cmd.read 1).getLsbD k = false → t.axis k = s.axis k) ∧
        ((s.cmd.read 1).getLsbD k = true →
          (t.axis k).pos = (s.axis k).pos ∧
          (t.axis k).target = s.cmd.read16 (4 + 4 * k) ∧
          (t.axis k).dirty = true ∧
          ((s.axis k).pos.toInt < (s.cmd.read16 (4 + 4 * k)).toInt →
            (t.axis k).freq.toNat = min (s.cmd.read16 (2 + 4 * k)).toNat (s.cfg.axis k).fmax ∧
            (t.axis k).dir = (s.cfg.axis k).dirPos) ∧
          ((s.cmd.read16 (4 + 4 * k)).toInt < (s.axis k).pos.toInt →
            (t.axis k).freq.toNat = min (s.cmd.read16 (2 + 4 * k)).toNat (s.cfg.axis k).fmax ∧
            (t.axis k).dir = (s.cfg.axis k).dirNeg) ∧
          ((s.cmd.read16 (4 + 4 * k)).toInt = (s.axis k).pos.toInt →
            (t.axis k).freq = 0#16 ∧ (t.axis k).dir = (s.axis k).dir))

/-- R82, R152: the slots of unselected axes and the mask bits at or above `N_AX` have no influence on the batch: two
commands that agree on the low mask bits and on the selected slots leave the same axis table. -/
def Obligations.UnselectedSlotsHaveNoInfluence : Prop :=
  ∀ s t s' t' : State, s'.cfg = s.cfg → s'.ax = s.ax → s.fgPc = .batch → s'.fgPc = .batch →
    (∀ k, k < s.cfg.nAx → (s'.cmd.read 1).getLsbD k = (s.cmd.read 1).getLsbD k ∧
      ((s.cmd.read 1).getLsbD k = true →
        s'.cmd.read16 (2 + 4 * k) = s.cmd.read16 (2 + 4 * k) ∧
        s'.cmd.read16 (4 + 4 * k) = s.cmd.read16 (4 + 4 * k))) →
    exec .batch s = .next t → exec .batch s' = .next t' → t'.ax = t.ax

/-- R171, R173: UPDATE_AXIS in its phase. A clamped frequency of 0 disables the channel, keeps its parameters and leaves the
direction line; any other derives the parameters, stores the achieved frequency, drives the direction line and starts the
channel. The dirty flag is cleared, `IE` is restored, and no other axis or channel is touched. R155 writes `FG_PC` after
the call; that `exec` of UPDATE_AXIS includes that write is the model's choice (log entry 11). -/
def Obligations.UpdateAxisAppliesTheDerivation : Prop :=
  ∀ (s : State) (i : Nat), s.valid = true → i < s.cfg.nAx → s.fgPc = .upd i → (s.axis i).dirty = true →
    ∃ t, exec (.updateAxis i) s = .next t ∧
      t = { s with ax := t.ax, ch := t.ch, dirline := t.dirline, savedIe := s.ie, fgPc := .upd (i + 1),
                   outputs := t.outputs } ∧
      (∀ j, j ≠ i → t.axis j = s.axis j ∧ t.line j = s.line j) ∧
      (∀ d, d ≠ s.cfg.chan i → t.channel d = s.channel d) ∧
      t.axis i = { s.axis i with freq := (t.axis i).freq, dirty := false } ∧
      (min (s.axis i).freq.toNat (s.cfg.axis i).fmax = 0 →
        (t.axis i).freq = 0#16 ∧
        t.line i = s.line i ∧
        t.channel (s.cfg.chan i) =
          { s.channel (s.cfg.chan i) with
            ctl := (s.channel (s.cfg.chan i)).ctl &&& ~~~(s.cfg.channel (s.cfg.chan i)).csMask
            isOn := false }) ∧
      (∀ f, f = min (s.axis i).freq.toNat (s.cfg.axis i).fmax → f ≠ 0 →
        (t.axis i).freq.toNat = deriveAchieved s.cfg.fClk (s.cfg.channel (s.cfg.chan i)) f ∧
        (t.axis i).freq ≠ 0#16 ∧
        t.line i = (s.axis i).dir ∧
        (t.channel (s.cfg.chan i)).psc = derivePsc s.cfg.fClk (s.cfg.channel (s.cfg.chan i)) f ∧
        (t.channel (s.cfg.chan i)).top.toNat = deriveTop s.cfg.fClk (s.cfg.channel (s.cfg.chan i)) f ∧
        (t.channel (s.cfg.chan i)).isOn = true ∧
        ∃ code, (s.cfg.channel (s.cfg.chan i)).csCode[(t.channel (s.cfg.chan i)).psc]? = some code ∧
          (t.channel (s.cfg.chan i)).ctl =
            ((s.channel (s.cfg.chan i)).ctl &&& ~~~(s.cfg.channel (s.cfg.chan i)).csMask) ||| code)

/-- R73, R171, R175: the order in which the counter and the direction output see UPDATE_AXIS. A start: the clock-select
field cleared, the prescaler index, the reload value, the direction line, the field set. A stop: the field cleared, by
DERIVE and again by the updater (R173), and nothing else. The list that shows the order is the model's (log entry 14). -/
def Obligations.UpdateAxisWritesInOrder : Prop :=
  ∀ (s : State) (i c f : Nat) (off : Byte), s.valid = true → i < s.cfg.nAx → s.fgPc = .upd i →
    (s.axis i).dirty = true → c = s.cfg.chan i → f = min (s.axis i).freq.toNat (s.cfg.axis i).fmax →
    off = (s.channel c).ctl &&& ~~~(s.cfg.channel c).csMask →
    ∃ t, exec (.updateAxis i) s = .next t ∧
      (f = 0 → t.outputs = s.outputs ++ [.ctl c off, .ctl c off]) ∧
      (f ≠ 0 →
        ∃ (top : Word16) (code : Byte),
          top.toNat = deriveTop s.cfg.fClk (s.cfg.channel c) f ∧
          (s.cfg.channel c).csCode[derivePsc s.cfg.fClk (s.cfg.channel c) f]? = some code ∧
          t.outputs =
            s.outputs ++
              [.ctl c off, .psc c (derivePsc s.cfg.fClk (s.cfg.channel c) f), .top c top, .line i (s.axis i).dir,
                .ctl c (off ||| code)])

/-- R156: CLRMASK zeroes byte 1 of the latched record and nothing else. -/
def Obligations.ClrMaskZeroesTheMask : Prop :=
  ∀ s : State, s.valid = true → s.fgPc = .clr →
    ∃ t, exec .clrMask s = .next t ∧
      t.cmd.read 1 = 0#8 ∧
      (∀ a, a ≠ 1 → t.cmd.read a = s.cmd.read a) ∧
      t = { s with cmd := t.cmd, fgPc := .snap }

/-- R158: SNAPSHOT writes the whole status record, the echoed opcode and the (frequency, position) pair of every axis, in
one guarded section, raises STATUS_VALID and goes idle. -/
def Obligations.SnapshotWritesTheStatusRecord : Prop :=
  ∀ s : State, s.valid = true → s.fgPc = .snap →
    ∃ t, exec .snapshot s = .next t ∧
      t.status.read 0 = s.cmd.read 0 ∧
      (∀ k, k < s.cfg.nAx →
        t.status.read16 (1 + 4 * k) = (s.axis k).freq ∧ t.status.read16 (3 + 4 * k) = (s.axis k).pos) ∧
      (∀ a, 1 + 4 * s.cfg.nAx ≤ a → t.status.read a = s.status.read a) ∧
      t = { s with status := t.status, statusValid := true, savedIe := s.ie, fgPc := .idle }

/-- R189: no status record shows an axis at its target with a non-zero frequency. -/
def Obligations.StatusNeverShowsMotionAtTheTarget : Prop :=
  ∀ (s t : State) (k : Nat), s.Inv → s.fgPc = .snap → k < s.cfg.nAx → exec .snapshot s = .next t →
    t.status.read16 (3 + 4 * k) = (s.axis k).target → t.status.read16 (1 + 4 * k) = 0#16

/-- R148, R151, R159: a SET_STATE dispatch of the foreground alone is `N_AX + 5` turns, phase IDLE comes back with the last
and not before, and then the status reports every axis, no axis is dirty, `IE` is as before, every axis is RUNNING or
STOPPED, a selected axis has its new target and its achieved frequency (0 when the target was its position), and an
unselected one is unchanged. -/
def Obligations.SetStateDispatchCompletes : Prop :=
  ∀ (s : State) (bytes : List Byte), s.Inv → s.fgPc = .idle → s.cmdPort = some bytes →
    bytes.length = 2 + 4 * s.cfg.nAx → bytes[0]? = some s.cfg.opSet →
    (∀ n u, 0 < n → n < s.cfg.nAx + 5 → runForeground n s = .next u → u.fgPc ≠ .idle) ∧
    ∃ t, runForeground (s.cfg.nAx + 5) s = .next t ∧
      t.fgPc = .idle ∧ t.statusValid = true ∧ t.cmdPort = none ∧ t.ie = s.ie ∧ t.cfg = s.cfg ∧
      t.pend = s.pend ∧ t.overrun = s.overrun ∧
      t.status.read 0 = s.cfg.opSet ∧
      ∀ k, k < s.cfg.nAx →
        t.status.read16 (1 + 4 * k) = (t.axis k).freq ∧
        t.status.read16 (3 + 4 * k) = (t.axis k).pos ∧
        (t.axis k).pos = (s.axis k).pos ∧
        (t.axis k).dirty = false ∧
        (t.running k = true ∨ t.stopped k = true) ∧
        ((bytes.getD 1 0#8).getLsbD k = false →
          t.axis k = s.axis k ∧ t.channel (s.cfg.chan k) = s.channel (s.cfg.chan k) ∧ t.line k = s.line k) ∧
        ((bytes.getD 1 0#8).getLsbD k = true →
          (t.axis k).target = word16 (bytes.getD (4 + 4 * k) 0#8) (bytes.getD (5 + 4 * k) 0#8) ∧
          (t.axis k).freq.toNat =
            if (t.axis k).target = (s.axis k).pos then 0
            else deriveResult s.cfg (s.cfg.chan k)
              (min (word16 (bytes.getD (2 + 4 * k) 0#8) (bytes.getD (3 + 4 * k) 0#8)).toNat (s.cfg.axis k).fmax))

/-- R151: GET_STATE and UNRECOGNIZED are two turns of the foreground; the filtered opcodes are one, without a status. -/
def Obligations.OtherDispatchesTakeTwoTurnsOrOne : Prop :=
  ∀ (s : State) (bytes : List Byte) (op : Byte), s.valid = true → s.fgPc = .idle → s.cmdPort = some bytes →
    bytes.length = 2 + 4 * s.cfg.nAx → bytes[0]? = some op → op ≠ s.cfg.opSet →
    ((op = s.cfg.opReset ∨ op = s.cfg.opBoot) →
      ∃ t, runForeground 1 s = .next t ∧ t.fgPc = .idle ∧ t.statusValid = false ∧ t.status = s.status) ∧
    (op ≠ s.cfg.opReset → op ≠ s.cfg.opBoot →
      ∃ u t, runForeground 1 s = .next u ∧ u.fgPc = .snap ∧ runForeground 2 s = .next t ∧ t.fgPc = .idle ∧
        t.statusValid = true ∧ t.status.read 0 = op ∧ t.ax = s.ax ∧ t.ch = s.ch ∧ t.dirline = s.dirline ∧ t.ie = s.ie)

/-! ## The whole machine -/

/-- R200: every well-formed operation answers a next state in every valid state; ACCEPT when the record that waits, if any,
has the length of the format. One that is not enabled there leaves the state, by the model's choice (log entry 4). -/
def Obligations.EveryWellFormedOperationCompletes : Prop :=
  ∀ (i : Instr) (s : State), s.valid = true → i.wellFormed s.cfg = true →
    (i = .accept → ∀ bytes, s.cmdPort = some bytes → bytes.length = 2 + 4 * s.cfg.nAx) →
    ∃ t, exec i s = .next t

/-- R9, R20, R30, R31, R40, R60: no operation changes the configuration, the size of a table, the range of a prescaler index
or of the phase, and every operation keeps both buffers inside their records. That the buffers stay canonical (log entry 8)
and that only a valid state has a next state (log entry 12) is the model's choice. -/
def Obligations.EveryOperationKeepsTheStateValid : Prop :=
  ∀ (i : Instr) (s t : State), exec i s = .next t → s.valid = true ∧ t.valid = true ∧ t.cfg = s.cfg

/-- R73: a step shows the outside all its output writes: applied in their order to the registers before the step, they
give `CTL`, `psc`, `top` and the direction lines after it, for every step but `rst`. No agent observes them: a step does not
depend on the list left by the step before. The list is the model's (log entry 14). -/
def Obligations.StepShowsItsOutputWrites : Prop :=
  ∀ s t : State, step s = .next t →
    (s.inputs.head? ≠ some .rst → (t.outputs.foldl State.apply s).SameOutputs t) ∧
    ∀ earlier : List OutputWrite, step { s with outputs := earlier } = .next t

/-- R28, R31 to R34: every step keeps the invariant of the core. -/
def Obligations.EveryStepKeepsTheInvariant : Prop :=
  ∀ s t : State, s.Inv → step s = .next t → t.Inv

/-- R21 to R26: who writes the axis registers: the position is written by TRACK alone (R22), the target and the direction
flag by BATCH alone (R23, R24), the dirty flag by BATCH and UPDATE_AXIS (R25), the frequency by these three (R21, R26). -/
def Obligations.AxisRegistersHaveTheirWriters : Prop :=
  ∀ (i : Instr) (s t : State) (k : Nat), exec i s = .next t →
    ((t.axis k).pos ≠ (s.axis k).pos → i = .track k) ∧
    ((t.axis k).target ≠ (s.axis k).target → i = .batch) ∧
    ((t.axis k).dir ≠ (s.axis k).dir → i = .batch) ∧
    ((t.axis k).dirty ≠ (s.axis k).dirty → i = .batch ∨ i = .updateAxis k) ∧
    ((t.axis k).freq ≠ (s.axis k).freq → i = .batch ∨ i = .updateAxis k ∨ (i = .track k ∧ (t.axis k).freq = 0#16))

/-- R38, R211: no operation but TRACK(k) clears the latch of axis `k`, and none clears an overrun bit. -/
def Obligations.OnlyTheTrackerClearsTheLatch : Prop :=
  ∀ (i : Instr) (s t : State) (k : Nat), exec i s = .next t →
    (s.pending k = true → t.pending k = false → i = .track k) ∧
    (s.overran k = true → t.overran k = true)

/-- R186, R189: at the boundaries between steps `IE` keeps its value: the guarded sections restore it, and only `rst` and
the boot step change it. -/
def Obligations.InterruptEnableIsRestoredByEveryStep : Prop :=
  ∀ s t : State, step s = .next t → t.ie = s.ie ∨ s.inputs.head? = some .rst ∨ s.inputs.head? = some .boot
end

