-- ==== Sys2Proof/Laws/Config.lean ====
section
/-! SUPPORT. What an accepted configuration gives, index by index (R9), so that no later proof unfolds the checks. -/

namespace Sys2Proof

variable {cfg : Cfg}

theorem Cfg.accepted_iff : cfg.accepted = true ↔
    cfg.wf1 = true ∧ cfg.wf2 = true ∧ cfg.wf3 = true ∧ cfg.wf4 = true ∧ cfg.wf5 = true ∧ cfg.wf6 = true ∧
      cfg.wf7 = true ∧ cfg.wf8 = true ∧ cfg.legalValues = true := by
  simp only [Cfg.accepted, Cfg.wellFormed, Bool.and_eq_true]
  tauto

theorem Cfg.wf2_iff : cfg.wf2 = true ↔
    cfg.axes.length = cfg.nAx ∧ cfg.channels.length = cfg.nAx ∧ (∀ a ∈ cfg.axes, a.chan < cfg.nAx) ∧
      (cfg.axes.map AxisCfg.chan).Nodup := by
  simp only [Cfg.wf2, Bool.and_eq_true, decide_eq_true_eq, List.all_eq_true]
  tauto

theorem Cfg.axes_length (h : cfg.accepted = true) : cfg.axes.length = cfg.nAx :=
  (Cfg.wf2_iff.mp (Cfg.accepted_iff.mp h).2.1).1

theorem Cfg.channels_length (h : cfg.accepted = true) : cfg.channels.length = cfg.nAx :=
  (Cfg.wf2_iff.mp (Cfg.accepted_iff.mp h).2.1).2.1

/-- WF1. -/
theorem Cfg.nAx_bounds (h : cfg.accepted = true) : 1 ≤ cfg.nAx ∧ cfg.nAx ≤ 8 := by
  simpa [Cfg.wf1] using (Cfg.accepted_iff.mp h).1

theorem Cfg.axis_mem (h : cfg.axes.length = cfg.nAx) {i : Nat} (hi : i < cfg.nAx) : cfg.axis i ∈ cfg.axes := by
  have hl : i < cfg.axes.length := h ▸ hi
  simp [Cfg.axis, List.getD_eq_getElem?_getD, hl]

theorem Cfg.channel_mem (h : cfg.channels.length = cfg.nAx) {c : Nat} (hc : c < cfg.nAx) :
    cfg.channel c ∈ cfg.channels := by
  have hl : c < cfg.channels.length := h ▸ hc
  simp [Cfg.channel, List.getD_eq_getElem?_getD, hl]

/-- WF2: the bound channel exists. -/
theorem Cfg.chan_lt (h : cfg.accepted = true) {i : Nat} (hi : i < cfg.nAx) : cfg.chan i < cfg.nAx :=
  (Cfg.wf2_iff.mp (Cfg.accepted_iff.mp h).2.1).2.2.1 _ (Cfg.axis_mem (Cfg.axes_length h) hi)

/-- WF2: two axes are not bound to one channel. -/
theorem Cfg.chan_inj (h : cfg.accepted = true) {i j : Nat} (hi : i < cfg.nAx) (hj : j < cfg.nAx)
    (e : cfg.chan i = cfg.chan j) : i = j := by
  have hl := Cfg.axes_length h
  have hn := (Cfg.wf2_iff.mp (Cfg.accepted_iff.mp h).2.1).2.2.2
  have hi' : i < (cfg.axes.map AxisCfg.chan).length := by simpa [hl] using hi
  have hj' : j < (cfg.axes.map AxisCfg.chan).length := by simpa [hl] using hj
  refine (List.Nodup.getElem_inj_iff hn (hi := hi') (hj := hj')).mp ?_
  have hi2 : i < cfg.axes.length := hl ▸ hi
  have hj2 : j < cfg.axes.length := hl ▸ hj
  simpa [Cfg.chan, Cfg.axis, List.getD_eq_getElem?_getD, hi2, hj2] using e

/-- The axis of R131: `boundAxis` inverts `chan`. -/
theorem Cfg.boundAxis_chan (h : cfg.accepted = true) {i : Nat} (hi : i < cfg.nAx) :
    Machine.boundAxis cfg (cfg.chan i) = i := by
  unfold Machine.boundAxis
  cases hf : (List.range cfg.nAx).find? fun j => cfg.chan j == cfg.chan i with
  | none =>
    have := List.find?_eq_none.mp hf i (List.mem_range.mpr hi)
    simp at this
  | some j =>
    have hj : j < cfg.nAx := List.mem_range.mp (List.mem_of_find?_eq_some hf)
    have := List.find?_some hf
    exact Cfg.chan_inj h hj hi (by simpa using this)

/-- WF2: every channel is bound to an axis. -/
theorem Cfg.exists_axis (h : cfg.accepted = true) {c : Nat} (hc : c < cfg.nAx) : ∃ i, i < cfg.nAx ∧ cfg.chan i = c := by
  have hinj : Set.InjOn cfg.chan (Finset.range cfg.nAx : Set Nat) := by
    intro i hi j hj e
    exact Cfg.chan_inj h (by simpa using hi) (by simpa using hj) e
  have hmaps : ∀ i ∈ Finset.range cfg.nAx, cfg.chan i ∈ Finset.range cfg.nAx := fun i hi =>
    Finset.mem_range.mpr (Cfg.chan_lt h (Finset.mem_range.mp hi))
  obtain ⟨i, hi, e⟩ := Finset.surj_on_of_inj_on_of_card_le (fun i _ => cfg.chan i) hmaps
    (fun i j hi hj e => hinj (by simpa using hi) (by simpa using hj) e) le_rfl c (Finset.mem_range.mpr hc)
  exact ⟨i, Finset.mem_range.mp hi, e.symm⟩

theorem Cfg.boundAxis_spec (h : cfg.accepted = true) {c : Nat} (hc : c < cfg.nAx) :
    Machine.boundAxis cfg c < cfg.nAx ∧ cfg.chan (Machine.boundAxis cfg c) = c := by
  obtain ⟨i, hi, rfl⟩ := Cfg.exists_axis h hc
  rw [Cfg.boundAxis_chan h hi]
  exact ⟨hi, rfl⟩

/-- WF3 for one channel. -/
theorem Cfg.ratios_spec (h : cfg.accepted = true) {c : Nat} (hc : c < cfg.nAx) :
    (cfg.channel c).ratios ≠ [] ∧ (cfg.channel c).ratios.Pairwise (· < ·) ∧ ∀ p ∈ (cfg.channel c).ratios, 1 ≤ p := by
  have h3 := (Cfg.accepted_iff.mp h).2.2.1
  simp only [Cfg.wf3, List.all_eq_true, Bool.and_eq_true, decide_eq_true_eq] at h3
  obtain ⟨⟨a, b⟩, d⟩ := h3 _ (Cfg.channel_mem (Cfg.channels_length h) hc)
  exact ⟨a, b, d⟩

/-- WF4. -/
theorem Cfg.fClk_pos (h : cfg.accepted = true) : 1 ≤ cfg.fClk := by
  have h4 := (Cfg.accepted_iff.mp h).2.2.2.1
  simp only [Cfg.wf4, Bool.and_eq_true, decide_eq_true_eq] at h4
  exact h4.1

/-- WF4 for one channel. -/
theorem Cfg.counter_spec (h : cfg.accepted = true) {c : Nat} (hc : c < cfg.nAx) :
    1 ≤ (cfg.channel c).scale ∧ 1 ≤ (cfg.channel c).cmax ∧ (cfg.channel c).cmax ≤ 65535 := by
  have h4 := (Cfg.accepted_iff.mp h).2.2.2.1
  simp only [Cfg.wf4, List.all_eq_true, Bool.and_eq_true, decide_eq_true_eq] at h4
  exact h4.2 _ (Cfg.channel_mem (Cfg.channels_length h) hc)

/-- WF5 for one channel. -/
theorem Cfg.csCode_spec (h : cfg.accepted = true) {c : Nat} (hc : c < cfg.nAx) :
    (cfg.channel c).csCode.length = (cfg.channel c).ratios.length ∧ (cfg.channel c).csCode.Nodup ∧
      ∀ code ∈ (cfg.channel c).csCode, code ≠ 0#8 ∧ code &&& ~~~(cfg.channel c).csMask = 0#8 := by
  have h5 := (Cfg.accepted_iff.mp h).2.2.2.2.1
  simp only [Cfg.wf5, List.all_eq_true, Bool.and_eq_true, decide_eq_true_eq] at h5
  obtain ⟨⟨a, b⟩, d⟩ := h5 _ (Cfg.channel_mem (Cfg.channels_length h) hc)
  exact ⟨a, b, d⟩

/-- WF6 for one axis. -/
theorem Cfg.axis_spec (h : cfg.accepted = true) {i : Nat} (hi : i < cfg.nAx) :
    (cfg.axis i).dirPos ≠ (cfg.axis i).dirNeg ∧ (cfg.axis i).fmax ≤ 65535 ∧ -32768 ≤ (cfg.axis i).home ∧
      (cfg.axis i).home ≤ 32767 := by
  have h6 := (Cfg.accepted_iff.mp h).2.2.2.2.2.1
  simp only [Cfg.wf6, List.all_eq_true, decide_eq_true_eq] at h6
  exact h6 _ (Cfg.axis_mem (Cfg.axes_length h) hi)

/-- WF8. -/
theorem Cfg.opcodes_nodup (h : cfg.accepted = true) : [cfg.opGet, cfg.opSet, cfg.opReset, cfg.opBoot].Nodup := by
  simpa [Cfg.wf8] using (Cfg.accepted_iff.mp h).2.2.2.2.2.2.2.1

/-- The legal values of one channel (R8, R46). -/
theorem Cfg.field_spec (h : cfg.accepted = true) {c : Nat} (hc : c < cfg.nAx) :
    (cfg.channel c).csMask ≠ 0#8 ∧ (cfg.channel c).ctlInit &&& (cfg.channel c).csMask = 0#8 := by
  have hv := (Cfg.accepted_iff.mp h).2.2.2.2.2.2.2.2
  simp only [Cfg.legalValues, Bool.and_eq_true, List.all_eq_true, decide_eq_true_eq] at hv
  exact hv.1 _ (Cfg.channel_mem (Cfg.channels_length h) hc)

end Sys2Proof
end

