-- ==== Sys2Proof/Laws/Memory.lean ====
section
/-! SUPPORT. The laws of the record buffers: what a read gives after a write, and that every write keeps the canonical
form and the bounds of the buffer (R14, R60, R63). -/

namespace Sys2Proof.Machine

/-! ## Reads after writes -/

theorem Memory.read_nil (off : Nat) : Memory.read [] off = 0#8 := rfl

theorem Memory.read_cons (a : Nat) (x : Byte) (m : Memory) (off : Nat) :
    Memory.read ((a, x) :: m) off = if off = a then x else Memory.read m off := by
  by_cases h : off = a
  · subst h; simp [Memory.read, List.lookup]
  · have : (off == a) = false := by simpa using h
    simp [Memory.read, List.lookup, h, this]

/-- The offsets after the head of a canonical buffer lie above it. -/
theorem Memory.wf_cons {a : Nat} {x : Byte} {m : Memory} :
    Memory.wf ((a, x) :: m) = true ↔ (∀ cell ∈ m, a < cell.1) ∧ x ≠ 0#8 ∧ Memory.wf m = true := by
  simp only [Memory.wf, List.map_cons, List.pairwise_cons, List.all_cons, Bool.and_eq_true, decide_eq_true_eq,
    List.mem_map, forall_exists_index, and_imp, forall_apply_eq_imp_iff₂]
  tauto

/-- An offset below every listed one reads 0. -/
theorem Memory.read_below {m : Memory} {off : Nat} (h : ∀ cell ∈ m, off < cell.1) : Memory.read m off = 0#8 := by
  induction m with
  | nil => rfl
  | cons c m ih =>
    obtain ⟨a, x⟩ := c
    have h1 : off < a := h (a, x) (by simp)
    rw [Memory.read_cons, if_neg (by omega)]
    exact ih fun cell hc => h cell (by simp [hc])

/-- What a byte write does to every read. -/
theorem Memory.read_write {m : Memory} (hm : m.wf = true) (off a : Nat) (b : Byte) :
    (m.write off b).read a = if a = off then b else m.read a := by
  induction m with
  | nil =>
    by_cases hb : b = 0#8
    · by_cases ha : a = off <;> simp [Memory.write, hb, Memory.read_nil]
    · rw [Memory.write, if_neg hb, Memory.read_cons, Memory.read_nil]
  | cons c m ih =>
    obtain ⟨k, x⟩ := c
    obtain ⟨hlow, hx, hwf⟩ := Memory.wf_cons.mp hm
    rcases lt_trichotomy off k with h | h | h
    · have hz : Memory.read ((k, x) :: m) off = 0#8 :=
        Memory.read_below (by
          intro cell hc
          rcases List.mem_cons.mp hc with rfl | hc
          · exact h
          · exact lt_trans h (hlow cell hc))
      by_cases hb : b = 0#8
      · rw [Memory.write, if_pos h, if_pos hb]
        by_cases ha : a = off
        · rw [if_pos ha, ha, hz, hb]
        · rw [if_neg ha]
      · rw [Memory.write, if_pos h, if_neg hb, Memory.read_cons]
    · subst h
      by_cases hb : b = 0#8
      · rw [Memory.write, if_neg (by omega), if_pos rfl, if_pos hb, Memory.read_cons]
        by_cases ha : a = off
        · rw [if_pos ha, ha, Memory.read_below hlow, hb]
        · rw [if_neg ha, if_neg ha]
      · rw [Memory.write, if_neg (by omega), if_pos rfl, if_neg hb, Memory.read_cons, Memory.read_cons]
        by_cases ha : a = off <;> simp [ha]
    · rw [Memory.write, if_neg (by omega), if_neg (by omega), Memory.read_cons, Memory.read_cons, ih hwf]
      by_cases ha : a = off
      · rw [if_neg (by omega), if_pos ha, if_pos ha]
      · rw [if_neg ha, if_neg ha]

theorem Memory.read_write_self {m : Memory} (hm : m.wf = true) (off : Nat) (b : Byte) :
    (m.write off b).read off = b := by
  rw [Memory.read_write hm, if_pos rfl]

theorem Memory.read_write_ne {m : Memory} (hm : m.wf = true) {off a : Nat} (b : Byte) (h : a ≠ off) :
    (m.write off b).read a = m.read a := by
  rw [Memory.read_write hm, if_neg h]

/-! ## The canonical form and the bounds -/

/-- A byte write lists no cell but the old ones and the written one. -/
theorem Memory.mem_write {m : Memory} {off : Nat} {b : Byte} {cell : Host.Cell} (h : cell ∈ m.write off b) :
    cell ∈ m ∨ cell = (off, b) := by
  induction m with
  | nil =>
    by_cases hb : b = 0#8
    · simp [Memory.write, hb] at h
    · right; simpa [Memory.write, hb] using h
  | cons c m ih =>
    obtain ⟨k, x⟩ := c
    rw [Memory.write] at h
    split at h
    · split at h
      · exact .inl h
      · rcases List.mem_cons.mp h with h | h
        · exact .inr h
        · exact .inl h
    · split at h
      · split at h
        · exact .inl (List.mem_cons_of_mem _ h)
        · rcases List.mem_cons.mp h with h | h
          · exact .inr h
          · exact .inl (List.mem_cons_of_mem _ h)
      · rcases List.mem_cons.mp h with h | h
        · exact .inl (h ▸ List.mem_cons_self)
        · rcases ih h with h | h
          · exact .inl (List.mem_cons_of_mem _ h)
          · exact .inr h

theorem Memory.write_wf {m : Memory} (hm : m.wf = true) (off : Nat) (b : Byte) : (m.write off b).wf = true := by
  induction m with
  | nil =>
    by_cases hb : b = 0#8
    · rw [Memory.write, if_pos hb]; rfl
    · rw [Memory.write, if_neg hb]
      exact Memory.wf_cons.mpr ⟨by simp, hb, rfl⟩
  | cons c m ih =>
    obtain ⟨k, x⟩ := c
    obtain ⟨hlow, hx, hwf⟩ := Memory.wf_cons.mp hm
    rw [Memory.write]
    split
    · split
      · exact hm
      · next h hb =>
        refine Memory.wf_cons.mpr ⟨fun cell hc => ?_, hb, hm⟩
        rcases List.mem_cons.mp hc with rfl | hc
        · exact h
        · exact lt_trans h (hlow cell hc)
    · split
      · next h =>
        split
        · exact hwf
        · next hb => exact Memory.wf_cons.mpr ⟨fun cell hc => h ▸ hlow cell hc, hb, hwf⟩
      · next h h' =>
        refine Memory.wf_cons.mpr ⟨fun cell hc => ?_, hx, ih hwf⟩
        rcases Memory.mem_write hc with hc | rfl
        · exact hlow cell hc
        · show k < off
          omega

theorem Memory.within_iff {m : Memory} {len : Nat} : m.within len = true ↔ ∀ cell ∈ m, cell.1 < len := by
  simp [Memory.within]

theorem Memory.write_within {m : Memory} {len off : Nat} (hm : m.within len = true) (h : off < len) (b : Byte) :
    (m.write off b).within len = true := by
  rw [Memory.within_iff] at hm ⊢
  intro cell hc
  rcases Memory.mem_write hc with hc | rfl
  · exact hm cell hc
  · exact h

/-- Outside its bounds a buffer reads 0. -/
theorem Memory.read_outside {m : Memory} {len : Nat} (hm : m.within len = true) {off : Nat} (h : len ≤ off) :
    m.read off = 0#8 := by
  rw [Memory.within_iff] at hm
  induction m with
  | nil => rfl
  | cons c m ih =>
    obtain ⟨a, x⟩ := c
    have h1 : a < len := hm (a, x) (by simp)
    rw [Memory.read_cons, if_neg (by omega)]
    exact ih fun cell hc => hm cell (by simp [hc])

/-- Canonical buffers that read alike are the same data. -/
theorem Memory.ext_read {m n : Memory} (hm : m.wf = true) (hn : n.wf = true) (h : ∀ off, m.read off = n.read off) :
    m = n := by
  induction m generalizing n with
  | nil =>
    cases n with
    | nil => rfl
    | cons c n =>
      obtain ⟨a, x⟩ := c
      have := h a
      rw [Memory.read_cons, if_pos rfl, Memory.read_nil] at this
      exact absurd this.symm (Memory.wf_cons.mp hn).2.1
  | cons c m ih =>
    obtain ⟨a, x⟩ := c
    obtain ⟨hlow, hx, hwf⟩ := Memory.wf_cons.mp hm
    cases n with
    | nil =>
      have := h a
      rw [Memory.read_cons, if_pos rfl, Memory.read_nil] at this
      exact absurd this hx
    | cons d n =>
      obtain ⟨b, y⟩ := d
      obtain ⟨hlow', hy, hwf'⟩ := Memory.wf_cons.mp hn
      have ha := h a
      have hb := h b
      rw [Memory.read_cons, Memory.read_cons, if_pos rfl] at ha
      rw [Memory.read_cons, Memory.read_cons, if_pos rfl] at hb
      have hab : a = b := by
        by_contra hne
        rw [if_neg hne] at ha
        rw [if_neg (Ne.symm hne)] at hb
        rcases lt_or_gt_of_ne hne with hlt | hlt
        · rw [Memory.read_below fun cell hc => lt_trans hlt (hlow' cell hc)] at ha
          exact hx ha
        · rw [Memory.read_below fun cell hc => lt_trans hlt (hlow cell hc)] at hb
          exact hy hb.symm
      subst hab
      rw [if_pos rfl] at ha
      subst ha
      rw [ih hwf hwf' fun off => ?_]
      have ho := h off
      rw [Memory.read_cons, Memory.read_cons] at ho
      by_cases hoa : off = a
      · subst hoa
        rw [Memory.read_below hlow, Memory.read_below hlow']
      · rwa [if_neg hoa, if_neg hoa] at ho

/-! ## Two bytes, and the bytes of a record -/

theorem Memory.write16_wf {m : Memory} (hm : m.wf = true) (off : Nat) (v : Word16) : (m.write16 off v).wf = true :=
  Memory.write_wf (Memory.write_wf hm _ _) _ _

theorem Memory.write16_within {m : Memory} {len off : Nat} (hm : m.within len = true) (h : off + 1 < len) (v : Word16) :
    (m.write16 off v).within len = true :=
  Memory.write_within (Memory.write_within hm (by omega) _) h _

/-- What a 2-byte write does to every byte read. -/
theorem Memory.read_write16 {m : Memory} (hm : m.wf = true) (off a : Nat) (v : Word16) :
    (m.write16 off v).read a = if a = off then lowByte v else if a = off + 1 then highByte v else m.read a := by
  rw [Memory.write16, Memory.read_write (Memory.write_wf hm _ _), Memory.read_write hm]
  by_cases h : a = off
  · subst h; simp
  · simp [h]

theorem getLsbD_word16 (lo hi : Byte) (i : Nat) :
    (word16 lo hi).getLsbD i = if i < 8 then lo.getLsbD i else hi.getLsbD (i - 8) :=
  (BitVec.getLsbD_append (x := hi) (y := lo) (i := i)).trans (by by_cases h : i < 8 <;> simp [h])

theorem getLsbD_lowByte (v : Word16) (i : Nat) : (lowByte v).getLsbD i = (decide (i < 8) && v.getLsbD i) :=
  BitVec.getLsbD_setWidth ..

theorem getLsbD_highByte (v : Word16) (i : Nat) : (highByte v).getLsbD i = (decide (i < 8) && v.getLsbD (8 + i)) := by
  unfold highByte
  rw [BitVec.getLsbD_setWidth, BitVec.getLsbD_ushiftRight]

theorem word16_lowByte_highByte (v : Word16) : word16 (lowByte v) (highByte v) = v := by
  apply BitVec.eq_of_getLsbD_eq
  intro i hi
  rw [getLsbD_word16, getLsbD_lowByte, getLsbD_highByte]
  by_cases h : i < 8
  · simp [h]
  · rw [if_neg h, show 8 + (i - 8) = i by omega, decide_eq_true (show i - 8 < 8 by omega), Bool.true_and]

theorem lowByte_word16 (lo hi : Byte) : lowByte (word16 lo hi) = lo := by
  apply BitVec.eq_of_getLsbD_eq
  intro i h
  rw [getLsbD_lowByte, getLsbD_word16, if_pos h, decide_eq_true h, Bool.true_and]

theorem highByte_word16 (lo hi : Byte) : highByte (word16 lo hi) = hi := by
  apply BitVec.eq_of_getLsbD_eq
  intro i h
  rw [getLsbD_highByte, getLsbD_word16, if_neg (by omega), decide_eq_true h, Bool.true_and, Nat.add_sub_cancel_left]

/-- Bits 7:0 as a number. -/
theorem lowByte_toNat (v : Word16) : (lowByte v).toNat = v.toNat % 256 := by simp [lowByte]

/-- Bits 15:8 as a number. -/
theorem highByte_toNat (v : Word16) : (highByte v).toNat = v.toNat / 256 := by
  have := v.isLt
  simp only [highByte, BitVec.toNat_setWidth, BitVec.toNat_ushiftRight, Nat.shiftRight_eq_div_pow]
  omega

/-- A 2-byte field as a number. -/
theorem word16_toNat (lo hi : Byte) : (word16 lo hi).toNat = lo.toNat + 256 * hi.toNat := by
  have h : (word16 lo hi).toNat = hi.toNat <<< 8 ||| lo.toNat := BitVec.toNat_append ..
  rw [h, ← Nat.shiftLeft_add_eq_or_of_lt lo.isLt, Nat.shiftLeft_eq]
  omega

theorem Memory.writeBytes_wf {m : Memory} (hm : m.wf = true) (off : Nat) (bs : List Byte) :
    (m.writeBytes off bs).wf = true := by
  induction bs generalizing m off with
  | nil => exact hm
  | cons b bs ih => exact ih (Memory.write_wf hm _ _) _

theorem Memory.writeBytes_within {m : Memory} {len : Nat} (hm : m.within len = true) (off : Nat) (bs : List Byte)
    (h : off + bs.length ≤ len) : (m.writeBytes off bs).within len = true := by
  induction bs generalizing m off with
  | nil => exact hm
  | cons b bs ih =>
    rw [List.length_cons] at h
    exact ih (Memory.write_within hm (by omega) _) _ (by omega)

/-- What storing a record does to every byte read. -/
theorem Memory.read_writeBytes {m : Memory} (hm : m.wf = true) (off a : Nat) (bs : List Byte) :
    (m.writeBytes off bs).read a =
      if off ≤ a ∧ a < off + bs.length then bs.getD (a - off) 0#8 else m.read a := by
  induction bs generalizing m off with
  | nil => simp [Memory.writeBytes]
  | cons b bs ih =>
    rw [Memory.writeBytes, ih (Memory.write_wf hm _ _), Memory.read_write hm, List.length_cons]
    rcases lt_trichotomy a off with h | h | h
    · rw [if_neg (by omega), if_neg (by omega), if_neg (by omega)]
    · subst h
      rw [if_neg (by omega), if_pos rfl, if_pos (by omega)]
      simp
    · obtain ⟨d, rfl⟩ : ∃ d, a = off + 1 + d := ⟨a - (off + 1), by omega⟩
      have h1 : off + 1 + d - (off + 1) = d := by omega
      have h2 : off + 1 + d - off = d + 1 := by omega
      rw [h1, h2, if_neg (show ¬off + 1 + d = off by omega)]
      by_cases hb : d < bs.length
      · rw [if_pos (by omega), if_pos (by omega)]
        simp
      · rw [if_neg (by omega), if_neg (by omega)]

end Sys2Proof.Machine
end

