-- ==== Sys2Proof/Laws/State.lean ====
section
/-! SUPPORT. One lemma per field per update of State, and what each accessor reads after each update. -/

namespace Sys2Proof.Machine

/-! ### setAxis -/

@[simp] theorem setAxis_cfg (s : State) (i : Nat) (r : AxisRegs) : (s.setAxis i r).cfg = s.cfg := rfl
@[simp] theorem setAxis_ax (s : State) (i : Nat) (r : AxisRegs) : (s.setAxis i r).ax = s.ax.set i r := rfl
@[simp] theorem setAxis_ch (s : State) (i : Nat) (r : AxisRegs) : (s.setAxis i r).ch = s.ch := rfl
@[simp] theorem setAxis_dirline (s : State) (i : Nat) (r : AxisRegs) : (s.setAxis i r).dirline = s.dirline := rfl
@[simp] theorem setAxis_pend (s : State) (i : Nat) (r : AxisRegs) : (s.setAxis i r).pend = s.pend := rfl
@[simp] theorem setAxis_overrun (s : State) (i : Nat) (r : AxisRegs) : (s.setAxis i r).overrun = s.overrun := rfl
@[simp] theorem setAxis_ie (s : State) (i : Nat) (r : AxisRegs) : (s.setAxis i r).ie = s.ie := rfl
@[simp] theorem setAxis_savedIe (s : State) (i : Nat) (r : AxisRegs) : (s.setAxis i r).savedIe = s.savedIe := rfl
@[simp] theorem setAxis_fgPc (s : State) (i : Nat) (r : AxisRegs) : (s.setAxis i r).fgPc = s.fgPc := rfl
@[simp] theorem setAxis_cmd (s : State) (i : Nat) (r : AxisRegs) : (s.setAxis i r).cmd = s.cmd := rfl
@[simp] theorem setAxis_status (s : State) (i : Nat) (r : AxisRegs) : (s.setAxis i r).status = s.status := rfl
@[simp] theorem setAxis_statusValid (s : State) (i : Nat) (r : AxisRegs) : (s.setAxis i r).statusValid = s.statusValid := rfl
@[simp] theorem setAxis_cmdTake (s : State) (i : Nat) (r : AxisRegs) : (s.setAxis i r).cmdTake = s.cmdTake := rfl
@[simp] theorem setAxis_reqReset (s : State) (i : Nat) (r : AxisRegs) : (s.setAxis i r).reqReset = s.reqReset := rfl
@[simp] theorem setAxis_reqBoot (s : State) (i : Nat) (r : AxisRegs) : (s.setAxis i r).reqBoot = s.reqBoot := rfl
@[simp] theorem setAxis_cmdPort (s : State) (i : Nat) (r : AxisRegs) : (s.setAxis i r).cmdPort = s.cmdPort := rfl
@[simp] theorem setAxis_inputs (s : State) (i : Nat) (r : AxisRegs) : (s.setAxis i r).inputs = s.inputs := rfl
@[simp] theorem setAxis_outputs (s : State) (i : Nat) (r : AxisRegs) : (s.setAxis i r).outputs = s.outputs := rfl

/-! ### setChannel -/

@[simp] theorem setChannel_cfg (s : State) (c : Nat) (r : ChannelRegs) : (s.setChannel c r).cfg = s.cfg := rfl
@[simp] theorem setChannel_ax (s : State) (c : Nat) (r : ChannelRegs) : (s.setChannel c r).ax = s.ax := rfl
@[simp] theorem setChannel_ch (s : State) (c : Nat) (r : ChannelRegs) : (s.setChannel c r).ch = s.ch.set c r := rfl
@[simp] theorem setChannel_dirline (s : State) (c : Nat) (r : ChannelRegs) : (s.setChannel c r).dirline = s.dirline := rfl
@[simp] theorem setChannel_pend (s : State) (c : Nat) (r : ChannelRegs) : (s.setChannel c r).pend = s.pend := rfl
@[simp] theorem setChannel_overrun (s : State) (c : Nat) (r : ChannelRegs) : (s.setChannel c r).overrun = s.overrun := rfl
@[simp] theorem setChannel_ie (s : State) (c : Nat) (r : ChannelRegs) : (s.setChannel c r).ie = s.ie := rfl
@[simp] theorem setChannel_savedIe (s : State) (c : Nat) (r : ChannelRegs) : (s.setChannel c r).savedIe = s.savedIe := rfl
@[simp] theorem setChannel_fgPc (s : State) (c : Nat) (r : ChannelRegs) : (s.setChannel c r).fgPc = s.fgPc := rfl
@[simp] theorem setChannel_cmd (s : State) (c : Nat) (r : ChannelRegs) : (s.setChannel c r).cmd = s.cmd := rfl
@[simp] theorem setChannel_status (s : State) (c : Nat) (r : ChannelRegs) : (s.setChannel c r).status = s.status := rfl
@[simp] theorem setChannel_statusValid (s : State) (c : Nat) (r : ChannelRegs) : (s.setChannel c r).statusValid = s.statusValid := rfl
@[simp] theorem setChannel_cmdTake (s : State) (c : Nat) (r : ChannelRegs) : (s.setChannel c r).cmdTake = s.cmdTake := rfl
@[simp] theorem setChannel_reqReset (s : State) (c : Nat) (r : ChannelRegs) : (s.setChannel c r).reqReset = s.reqReset := rfl
@[simp] theorem setChannel_reqBoot (s : State) (c : Nat) (r : ChannelRegs) : (s.setChannel c r).reqBoot = s.reqBoot := rfl
@[simp] theorem setChannel_cmdPort (s : State) (c : Nat) (r : ChannelRegs) : (s.setChannel c r).cmdPort = s.cmdPort := rfl
@[simp] theorem setChannel_inputs (s : State) (c : Nat) (r : ChannelRegs) : (s.setChannel c r).inputs = s.inputs := rfl
@[simp] theorem setChannel_outputs (s : State) (c : Nat) (r : ChannelRegs) : (s.setChannel c r).outputs = s.outputs := rfl

/-! ### setLine -/

@[simp] theorem setLine_cfg (s : State) (i : Nat) (b : Bool) : (s.setLine i b).cfg = s.cfg := rfl
@[simp] theorem setLine_ax (s : State) (i : Nat) (b : Bool) : (s.setLine i b).ax = s.ax := rfl
@[simp] theorem setLine_ch (s : State) (i : Nat) (b : Bool) : (s.setLine i b).ch = s.ch := rfl
@[simp] theorem setLine_dirline (s : State) (i : Nat) (b : Bool) : (s.setLine i b).dirline = s.dirline.set i b := rfl
@[simp] theorem setLine_pend (s : State) (i : Nat) (b : Bool) : (s.setLine i b).pend = s.pend := rfl
@[simp] theorem setLine_overrun (s : State) (i : Nat) (b : Bool) : (s.setLine i b).overrun = s.overrun := rfl
@[simp] theorem setLine_ie (s : State) (i : Nat) (b : Bool) : (s.setLine i b).ie = s.ie := rfl
@[simp] theorem setLine_savedIe (s : State) (i : Nat) (b : Bool) : (s.setLine i b).savedIe = s.savedIe := rfl
@[simp] theorem setLine_fgPc (s : State) (i : Nat) (b : Bool) : (s.setLine i b).fgPc = s.fgPc := rfl
@[simp] theorem setLine_cmd (s : State) (i : Nat) (b : Bool) : (s.setLine i b).cmd = s.cmd := rfl
@[simp] theorem setLine_status (s : State) (i : Nat) (b : Bool) : (s.setLine i b).status = s.status := rfl
@[simp] theorem setLine_statusValid (s : State) (i : Nat) (b : Bool) : (s.setLine i b).statusValid = s.statusValid := rfl
@[simp] theorem setLine_cmdTake (s : State) (i : Nat) (b : Bool) : (s.setLine i b).cmdTake = s.cmdTake := rfl
@[simp] theorem setLine_reqReset (s : State) (i : Nat) (b : Bool) : (s.setLine i b).reqReset = s.reqReset := rfl
@[simp] theorem setLine_reqBoot (s : State) (i : Nat) (b : Bool) : (s.setLine i b).reqBoot = s.reqBoot := rfl
@[simp] theorem setLine_cmdPort (s : State) (i : Nat) (b : Bool) : (s.setLine i b).cmdPort = s.cmdPort := rfl
@[simp] theorem setLine_inputs (s : State) (i : Nat) (b : Bool) : (s.setLine i b).inputs = s.inputs := rfl
@[simp] theorem setLine_outputs (s : State) (i : Nat) (b : Bool) : (s.setLine i b).outputs = s.outputs := rfl

/-! ### setOn -/

@[simp] theorem setOn_cfg (s : State) (c : Nat) (b : Bool) : (s.setOn c b).cfg = s.cfg := rfl
@[simp] theorem setOn_ax (s : State) (c : Nat) (b : Bool) : (s.setOn c b).ax = s.ax := rfl
@[simp] theorem setOn_ch (s : State) (c : Nat) (b : Bool) : (s.setOn c b).ch = s.ch.set c { s.channel c with isOn := b } := rfl
@[simp] theorem setOn_dirline (s : State) (c : Nat) (b : Bool) : (s.setOn c b).dirline = s.dirline := rfl
@[simp] theorem setOn_pend (s : State) (c : Nat) (b : Bool) : (s.setOn c b).pend = s.pend := rfl
@[simp] theorem setOn_overrun (s : State) (c : Nat) (b : Bool) : (s.setOn c b).overrun = s.overrun := rfl
@[simp] theorem setOn_ie (s : State) (c : Nat) (b : Bool) : (s.setOn c b).ie = s.ie := rfl
@[simp] theorem setOn_savedIe (s : State) (c : Nat) (b : Bool) : (s.setOn c b).savedIe = s.savedIe := rfl
@[simp] theorem setOn_fgPc (s : State) (c : Nat) (b : Bool) : (s.setOn c b).fgPc = s.fgPc := rfl
@[simp] theorem setOn_cmd (s : State) (c : Nat) (b : Bool) : (s.setOn c b).cmd = s.cmd := rfl
@[simp] theorem setOn_status (s : State) (c : Nat) (b : Bool) : (s.setOn c b).status = s.status := rfl
@[simp] theorem setOn_statusValid (s : State) (c : Nat) (b : Bool) : (s.setOn c b).statusValid = s.statusValid := rfl
@[simp] theorem setOn_cmdTake (s : State) (c : Nat) (b : Bool) : (s.setOn c b).cmdTake = s.cmdTake := rfl
@[simp] theorem setOn_reqReset (s : State) (c : Nat) (b : Bool) : (s.setOn c b).reqReset = s.reqReset := rfl
@[simp] theorem setOn_reqBoot (s : State) (c : Nat) (b : Bool) : (s.setOn c b).reqBoot = s.reqBoot := rfl
@[simp] theorem setOn_cmdPort (s : State) (c : Nat) (b : Bool) : (s.setOn c b).cmdPort = s.cmdPort := rfl
@[simp] theorem setOn_inputs (s : State) (c : Nat) (b : Bool) : (s.setOn c b).inputs = s.inputs := rfl
@[simp] theorem setOn_outputs (s : State) (c : Nat) (b : Bool) : (s.setOn c b).outputs = s.outputs := rfl

/-! ### apply -/

@[simp] theorem apply_cfg (s : State) (w : OutputWrite) : (s.apply w).cfg = s.cfg := by cases w <;> rfl
@[simp] theorem apply_ax (s : State) (w : OutputWrite) : (s.apply w).ax = s.ax := by cases w <;> rfl
@[simp] theorem apply_pend (s : State) (w : OutputWrite) : (s.apply w).pend = s.pend := by cases w <;> rfl
@[simp] theorem apply_overrun (s : State) (w : OutputWrite) : (s.apply w).overrun = s.overrun := by cases w <;> rfl
@[simp] theorem apply_ie (s : State) (w : OutputWrite) : (s.apply w).ie = s.ie := by cases w <;> rfl
@[simp] theorem apply_savedIe (s : State) (w : OutputWrite) : (s.apply w).savedIe = s.savedIe := by cases w <;> rfl
@[simp] theorem apply_fgPc (s : State) (w : OutputWrite) : (s.apply w).fgPc = s.fgPc := by cases w <;> rfl
@[simp] theorem apply_cmd (s : State) (w : OutputWrite) : (s.apply w).cmd = s.cmd := by cases w <;> rfl
@[simp] theorem apply_status (s : State) (w : OutputWrite) : (s.apply w).status = s.status := by cases w <;> rfl
@[simp] theorem apply_statusValid (s : State) (w : OutputWrite) : (s.apply w).statusValid = s.statusValid := by cases w <;> rfl
@[simp] theorem apply_cmdTake (s : State) (w : OutputWrite) : (s.apply w).cmdTake = s.cmdTake := by cases w <;> rfl
@[simp] theorem apply_reqReset (s : State) (w : OutputWrite) : (s.apply w).reqReset = s.reqReset := by cases w <;> rfl
@[simp] theorem apply_reqBoot (s : State) (w : OutputWrite) : (s.apply w).reqBoot = s.reqBoot := by cases w <;> rfl
@[simp] theorem apply_cmdPort (s : State) (w : OutputWrite) : (s.apply w).cmdPort = s.cmdPort := by cases w <;> rfl
@[simp] theorem apply_inputs (s : State) (w : OutputWrite) : (s.apply w).inputs = s.inputs := by cases w <;> rfl
@[simp] theorem apply_outputs (s : State) (w : OutputWrite) : (s.apply w).outputs = s.outputs := by cases w <;> rfl

/-! ### output -/

@[simp] theorem output_cfg (s : State) (w : OutputWrite) : (s.output w).cfg = s.cfg := by cases w <;> rfl
@[simp] theorem output_ax (s : State) (w : OutputWrite) : (s.output w).ax = s.ax := by cases w <;> rfl
@[simp] theorem output_pend (s : State) (w : OutputWrite) : (s.output w).pend = s.pend := by cases w <;> rfl
@[simp] theorem output_overrun (s : State) (w : OutputWrite) : (s.output w).overrun = s.overrun := by cases w <;> rfl
@[simp] theorem output_ie (s : State) (w : OutputWrite) : (s.output w).ie = s.ie := by cases w <;> rfl
@[simp] theorem output_savedIe (s : State) (w : OutputWrite) : (s.output w).savedIe = s.savedIe := by cases w <;> rfl
@[simp] theorem output_fgPc (s : State) (w : OutputWrite) : (s.output w).fgPc = s.fgPc := by cases w <;> rfl
@[simp] theorem output_cmd (s : State) (w : OutputWrite) : (s.output w).cmd = s.cmd := by cases w <;> rfl
@[simp] theorem output_status (s : State) (w : OutputWrite) : (s.output w).status = s.status := by cases w <;> rfl
@[simp] theorem output_statusValid (s : State) (w : OutputWrite) : (s.output w).statusValid = s.statusValid := by cases w <;> rfl
@[simp] theorem output_cmdTake (s : State) (w : OutputWrite) : (s.output w).cmdTake = s.cmdTake := by cases w <;> rfl
@[simp] theorem output_reqReset (s : State) (w : OutputWrite) : (s.output w).reqReset = s.reqReset := by cases w <;> rfl
@[simp] theorem output_reqBoot (s : State) (w : OutputWrite) : (s.output w).reqBoot = s.reqBoot := by cases w <;> rfl
@[simp] theorem output_cmdPort (s : State) (w : OutputWrite) : (s.output w).cmdPort = s.cmdPort := by cases w <;> rfl
@[simp] theorem output_inputs (s : State) (w : OutputWrite) : (s.output w).inputs = s.inputs := by cases w <;> rfl
@[simp] theorem output_ch (s : State) (w : OutputWrite) : (s.output w).ch = (s.apply w).ch := rfl
@[simp] theorem output_dirline (s : State) (w : OutputWrite) : (s.output w).dirline = (s.apply w).dirline := rfl
@[simp] theorem output_outputs (s : State) (w : OutputWrite) : (s.output w).outputs = s.outputs ++ [w] := rfl

/-! ### setPending -/

@[simp] theorem setPending_cfg (s : State) (i : Nat) (b : Bool) : (s.setPending i b).cfg = s.cfg := rfl
@[simp] theorem setPending_ax (s : State) (i : Nat) (b : Bool) : (s.setPending i b).ax = s.ax := rfl
@[simp] theorem setPending_ch (s : State) (i : Nat) (b : Bool) : (s.setPending i b).ch = s.ch := rfl
@[simp] theorem setPending_dirline (s : State) (i : Nat) (b : Bool) : (s.setPending i b).dirline = s.dirline := rfl
@[simp] theorem setPending_pend (s : State) (i : Nat) (b : Bool) : (s.setPending i b).pend = s.pend.set i b := rfl
@[simp] theorem setPending_overrun (s : State) (i : Nat) (b : Bool) : (s.setPending i b).overrun = s.overrun := rfl
@[simp] theorem setPending_ie (s : State) (i : Nat) (b : Bool) : (s.setPending i b).ie = s.ie := rfl
@[simp] theorem setPending_savedIe (s : State) (i : Nat) (b : Bool) : (s.setPending i b).savedIe = s.savedIe := rfl
@[simp] theorem setPending_fgPc (s : State) (i : Nat) (b : Bool) : (s.setPending i b).fgPc = s.fgPc := rfl
@[simp] theorem setPending_cmd (s : State) (i : Nat) (b : Bool) : (s.setPending i b).cmd = s.cmd := rfl
@[simp] theorem setPending_status (s : State) (i : Nat) (b : Bool) : (s.setPending i b).status = s.status := rfl
@[simp] theorem setPending_statusValid (s : State) (i : Nat) (b : Bool) : (s.setPending i b).statusValid = s.statusValid := rfl
@[simp] theorem setPending_cmdTake (s : State) (i : Nat) (b : Bool) : (s.setPending i b).cmdTake = s.cmdTake := rfl
@[simp] theorem setPending_reqReset (s : State) (i : Nat) (b : Bool) : (s.setPending i b).reqReset = s.reqReset := rfl
@[simp] theorem setPending_reqBoot (s : State) (i : Nat) (b : Bool) : (s.setPending i b).reqBoot = s.reqBoot := rfl
@[simp] theorem setPending_cmdPort (s : State) (i : Nat) (b : Bool) : (s.setPending i b).cmdPort = s.cmdPort := rfl
@[simp] theorem setPending_inputs (s : State) (i : Nat) (b : Bool) : (s.setPending i b).inputs = s.inputs := rfl
@[simp] theorem setPending_outputs (s : State) (i : Nat) (b : Bool) : (s.setPending i b).outputs = s.outputs := rfl

/-! ### setOverrun -/

@[simp] theorem setOverrun_cfg (s : State) (i : Nat) : (s.setOverrun i).cfg = s.cfg := rfl
@[simp] theorem setOverrun_ax (s : State) (i : Nat) : (s.setOverrun i).ax = s.ax := rfl
@[simp] theorem setOverrun_ch (s : State) (i : Nat) : (s.setOverrun i).ch = s.ch := rfl
@[simp] theorem setOverrun_dirline (s : State) (i : Nat) : (s.setOverrun i).dirline = s.dirline := rfl
@[simp] theorem setOverrun_pend (s : State) (i : Nat) : (s.setOverrun i).pend = s.pend := rfl
@[simp] theorem setOverrun_overrun (s : State) (i : Nat) : (s.setOverrun i).overrun = s.overrun.set i true := rfl
@[simp] theorem setOverrun_ie (s : State) (i : Nat) : (s.setOverrun i).ie = s.ie := rfl
@[simp] theorem setOverrun_savedIe (s : State) (i : Nat) : (s.setOverrun i).savedIe = s.savedIe := rfl
@[simp] theorem setOverrun_fgPc (s : State) (i : Nat) : (s.setOverrun i).fgPc = s.fgPc := rfl
@[simp] theorem setOverrun_cmd (s : State) (i : Nat) : (s.setOverrun i).cmd = s.cmd := rfl
@[simp] theorem setOverrun_status (s : State) (i : Nat) : (s.setOverrun i).status = s.status := rfl
@[simp] theorem setOverrun_statusValid (s : State) (i : Nat) : (s.setOverrun i).statusValid = s.statusValid := rfl
@[simp] theorem setOverrun_cmdTake (s : State) (i : Nat) : (s.setOverrun i).cmdTake = s.cmdTake := rfl
@[simp] theorem setOverrun_reqReset (s : State) (i : Nat) : (s.setOverrun i).reqReset = s.reqReset := rfl
@[simp] theorem setOverrun_reqBoot (s : State) (i : Nat) : (s.setOverrun i).reqBoot = s.reqBoot := rfl
@[simp] theorem setOverrun_cmdPort (s : State) (i : Nat) : (s.setOverrun i).cmdPort = s.cmdPort := rfl
@[simp] theorem setOverrun_inputs (s : State) (i : Nat) : (s.setOverrun i).inputs = s.inputs := rfl
@[simp] theorem setOverrun_outputs (s : State) (i : Nat) : (s.setOverrun i).outputs = s.outputs := rfl

/-! ### setFreq -/

@[simp] theorem setFreq_cfg (s : State) (i : Nat) (f : Word16) : (s.setFreq i f).cfg = s.cfg := rfl
@[simp] theorem setFreq_ch (s : State) (i : Nat) (f : Word16) : (s.setFreq i f).ch = s.ch := rfl
@[simp] theorem setFreq_dirline (s : State) (i : Nat) (f : Word16) : (s.setFreq i f).dirline = s.dirline := rfl
@[simp] theorem setFreq_pend (s : State) (i : Nat) (f : Word16) : (s.setFreq i f).pend = s.pend := rfl
@[simp] theorem setFreq_overrun (s : State) (i : Nat) (f : Word16) : (s.setFreq i f).overrun = s.overrun := rfl
@[simp] theorem setFreq_ie (s : State) (i : Nat) (f : Word16) : (s.setFreq i f).ie = s.ie := rfl
@[simp] theorem setFreq_savedIe (s : State) (i : Nat) (f : Word16) : (s.setFreq i f).savedIe = s.savedIe := rfl
@[simp] theorem setFreq_fgPc (s : State) (i : Nat) (f : Word16) : (s.setFreq i f).fgPc = s.fgPc := rfl
@[simp] theorem setFreq_cmd (s : State) (i : Nat) (f : Word16) : (s.setFreq i f).cmd = s.cmd := rfl
@[simp] theorem setFreq_status (s : State) (i : Nat) (f : Word16) : (s.setFreq i f).status = s.status := rfl
@[simp] theorem setFreq_statusValid (s : State) (i : Nat) (f : Word16) : (s.setFreq i f).statusValid = s.statusValid := rfl
@[simp] theorem setFreq_cmdTake (s : State) (i : Nat) (f : Word16) : (s.setFreq i f).cmdTake = s.cmdTake := rfl
@[simp] theorem setFreq_reqReset (s : State) (i : Nat) (f : Word16) : (s.setFreq i f).reqReset = s.reqReset := rfl
@[simp] theorem setFreq_reqBoot (s : State) (i : Nat) (f : Word16) : (s.setFreq i f).reqBoot = s.reqBoot := rfl
@[simp] theorem setFreq_cmdPort (s : State) (i : Nat) (f : Word16) : (s.setFreq i f).cmdPort = s.cmdPort := rfl
@[simp] theorem setFreq_inputs (s : State) (i : Nat) (f : Word16) : (s.setFreq i f).inputs = s.inputs := rfl
@[simp] theorem setFreq_outputs (s : State) (i : Nat) (f : Word16) : (s.setFreq i f).outputs = s.outputs := rfl

/-! ### setPos -/

@[simp] theorem setPos_cfg (s : State) (i : Nat) (p : Word16) : (s.setPos i p).cfg = s.cfg := rfl
@[simp] theorem setPos_ch (s : State) (i : Nat) (p : Word16) : (s.setPos i p).ch = s.ch := rfl
@[simp] theorem setPos_dirline (s : State) (i : Nat) (p : Word16) : (s.setPos i p).dirline = s.dirline := rfl
@[simp] theorem setPos_pend (s : State) (i : Nat) (p : Word16) : (s.setPos i p).pend = s.pend := rfl
@[simp] theorem setPos_overrun (s : State) (i : Nat) (p : Word16) : (s.setPos i p).overrun = s.overrun := rfl
@[simp] theorem setPos_ie (s : State) (i : Nat) (p : Word16) : (s.setPos i p).ie = s.ie := rfl
@[simp] theorem setPos_savedIe (s : State) (i : Nat) (p : Word16) : (s.setPos i p).savedIe = s.savedIe := rfl
@[simp] theorem setPos_fgPc (s : State) (i : Nat) (p : Word16) : (s.setPos i p).fgPc = s.fgPc := rfl
@[simp] theorem setPos_cmd (s : State) (i : Nat) (p : Word16) : (s.setPos i p).cmd = s.cmd := rfl
@[simp] theorem setPos_status (s : State) (i : Nat) (p : Word16) : (s.setPos i p).status = s.status := rfl
@[simp] theorem setPos_statusValid (s : State) (i : Nat) (p : Word16) : (s.setPos i p).statusValid = s.statusValid := rfl
@[simp] theorem setPos_cmdTake (s : State) (i : Nat) (p : Word16) : (s.setPos i p).cmdTake = s.cmdTake := rfl
@[simp] theorem setPos_reqReset (s : State) (i : Nat) (p : Word16) : (s.setPos i p).reqReset = s.reqReset := rfl
@[simp] theorem setPos_reqBoot (s : State) (i : Nat) (p : Word16) : (s.setPos i p).reqBoot = s.reqBoot := rfl
@[simp] theorem setPos_cmdPort (s : State) (i : Nat) (p : Word16) : (s.setPos i p).cmdPort = s.cmdPort := rfl
@[simp] theorem setPos_inputs (s : State) (i : Nat) (p : Word16) : (s.setPos i p).inputs = s.inputs := rfl
@[simp] theorem setPos_outputs (s : State) (i : Nat) (p : Word16) : (s.setPos i p).outputs = s.outputs := rfl

/-! ### setDirty -/

@[simp] theorem setDirty_cfg (s : State) (i : Nat) (b : Bool) : (s.setDirty i b).cfg = s.cfg := rfl
@[simp] theorem setDirty_ch (s : State) (i : Nat) (b : Bool) : (s.setDirty i b).ch = s.ch := rfl
@[simp] theorem setDirty_dirline (s : State) (i : Nat) (b : Bool) : (s.setDirty i b).dirline = s.dirline := rfl
@[simp] theorem setDirty_pend (s : State) (i : Nat) (b : Bool) : (s.setDirty i b).pend = s.pend := rfl
@[simp] theorem setDirty_overrun (s : State) (i : Nat) (b : Bool) : (s.setDirty i b).overrun = s.overrun := rfl
@[simp] theorem setDirty_ie (s : State) (i : Nat) (b : Bool) : (s.setDirty i b).ie = s.ie := rfl
@[simp] theorem setDirty_savedIe (s : State) (i : Nat) (b : Bool) : (s.setDirty i b).savedIe = s.savedIe := rfl
@[simp] theorem setDirty_fgPc (s : State) (i : Nat) (b : Bool) : (s.setDirty i b).fgPc = s.fgPc := rfl
@[simp] theorem setDirty_cmd (s : State) (i : Nat) (b : Bool) : (s.setDirty i b).cmd = s.cmd := rfl
@[simp] theorem setDirty_status (s : State) (i : Nat) (b : Bool) : (s.setDirty i b).status = s.status := rfl
@[simp] theorem setDirty_statusValid (s : State) (i : Nat) (b : Bool) : (s.setDirty i b).statusValid = s.statusValid := rfl
@[simp] theorem setDirty_cmdTake (s : State) (i : Nat) (b : Bool) : (s.setDirty i b).cmdTake = s.cmdTake := rfl
@[simp] theorem setDirty_reqReset (s : State) (i : Nat) (b : Bool) : (s.setDirty i b).reqReset = s.reqReset := rfl
@[simp] theorem setDirty_reqBoot (s : State) (i : Nat) (b : Bool) : (s.setDirty i b).reqBoot = s.reqBoot := rfl
@[simp] theorem setDirty_cmdPort (s : State) (i : Nat) (b : Bool) : (s.setDirty i b).cmdPort = s.cmdPort := rfl
@[simp] theorem setDirty_inputs (s : State) (i : Nat) (b : Bool) : (s.setDirty i b).inputs = s.inputs := rfl
@[simp] theorem setDirty_outputs (s : State) (i : Nat) (b : Bool) : (s.setDirty i b).outputs = s.outputs := rfl

/-! ### setPhase -/

@[simp] theorem setPhase_cfg (s : State) (ph : Phase) : (s.setPhase ph).cfg = s.cfg := rfl
@[simp] theorem setPhase_ax (s : State) (ph : Phase) : (s.setPhase ph).ax = s.ax := rfl
@[simp] theorem setPhase_ch (s : State) (ph : Phase) : (s.setPhase ph).ch = s.ch := rfl
@[simp] theorem setPhase_dirline (s : State) (ph : Phase) : (s.setPhase ph).dirline = s.dirline := rfl
@[simp] theorem setPhase_pend (s : State) (ph : Phase) : (s.setPhase ph).pend = s.pend := rfl
@[simp] theorem setPhase_overrun (s : State) (ph : Phase) : (s.setPhase ph).overrun = s.overrun := rfl
@[simp] theorem setPhase_ie (s : State) (ph : Phase) : (s.setPhase ph).ie = s.ie := rfl
@[simp] theorem setPhase_savedIe (s : State) (ph : Phase) : (s.setPhase ph).savedIe = s.savedIe := rfl
@[simp] theorem setPhase_fgPc (s : State) (ph : Phase) : (s.setPhase ph).fgPc = ph := rfl
@[simp] theorem setPhase_cmd (s : State) (ph : Phase) : (s.setPhase ph).cmd = s.cmd := rfl
@[simp] theorem setPhase_status (s : State) (ph : Phase) : (s.setPhase ph).status = s.status := rfl
@[simp] theorem setPhase_statusValid (s : State) (ph : Phase) : (s.setPhase ph).statusValid = s.statusValid := rfl
@[simp] theorem setPhase_cmdTake (s : State) (ph : Phase) : (s.setPhase ph).cmdTake = s.cmdTake := rfl
@[simp] theorem setPhase_reqReset (s : State) (ph : Phase) : (s.setPhase ph).reqReset = s.reqReset := rfl
@[simp] theorem setPhase_reqBoot (s : State) (ph : Phase) : (s.setPhase ph).reqBoot = s.reqBoot := rfl
@[simp] theorem setPhase_cmdPort (s : State) (ph : Phase) : (s.setPhase ph).cmdPort = s.cmdPort := rfl
@[simp] theorem setPhase_inputs (s : State) (ph : Phase) : (s.setPhase ph).inputs = s.inputs := rfl
@[simp] theorem setPhase_outputs (s : State) (ph : Phase) : (s.setPhase ph).outputs = s.outputs := rfl

/-! ### startTurn -/

@[simp] theorem startTurn_cfg (s : State) : s.startTurn.cfg = s.cfg := rfl
@[simp] theorem startTurn_ax (s : State) : s.startTurn.ax = s.ax := rfl
@[simp] theorem startTurn_ch (s : State) : s.startTurn.ch = s.ch := rfl
@[simp] theorem startTurn_dirline (s : State) : s.startTurn.dirline = s.dirline := rfl
@[simp] theorem startTurn_pend (s : State) : s.startTurn.pend = s.pend := rfl
@[simp] theorem startTurn_overrun (s : State) : s.startTurn.overrun = s.overrun := rfl
@[simp] theorem startTurn_ie (s : State) : s.startTurn.ie = s.ie := rfl
@[simp] theorem startTurn_savedIe (s : State) : s.startTurn.savedIe = s.savedIe := rfl
@[simp] theorem startTurn_fgPc (s : State) : s.startTurn.fgPc = s.fgPc := rfl
@[simp] theorem startTurn_cmd (s : State) : s.startTurn.cmd = s.cmd := rfl
@[simp] theorem startTurn_status (s : State) : s.startTurn.status = s.status := rfl
@[simp] theorem startTurn_statusValid (s : State) : s.startTurn.statusValid = false := rfl
@[simp] theorem startTurn_cmdTake (s : State) : s.startTurn.cmdTake = false := rfl
@[simp] theorem startTurn_reqReset (s : State) : s.startTurn.reqReset = false := rfl
@[simp] theorem startTurn_reqBoot (s : State) : s.startTurn.reqBoot = false := rfl
@[simp] theorem startTurn_cmdPort (s : State) : s.startTurn.cmdPort = s.cmdPort := rfl
@[simp] theorem startTurn_inputs (s : State) : s.startTurn.inputs = s.inputs := rfl
@[simp] theorem startTurn_outputs (s : State) : s.startTurn.outputs = [] := rfl

/-! ### guardEnter -/

@[simp] theorem guardEnter_cfg (s : State) : (guardEnter s).cfg = s.cfg := rfl
@[simp] theorem guardEnter_ax (s : State) : (guardEnter s).ax = s.ax := rfl
@[simp] theorem guardEnter_ch (s : State) : (guardEnter s).ch = s.ch := rfl
@[simp] theorem guardEnter_dirline (s : State) : (guardEnter s).dirline = s.dirline := rfl
@[simp] theorem guardEnter_pend (s : State) : (guardEnter s).pend = s.pend := rfl
@[simp] theorem guardEnter_overrun (s : State) : (guardEnter s).overrun = s.overrun := rfl
@[simp] theorem guardEnter_ie (s : State) : (guardEnter s).ie = false := rfl
@[simp] theorem guardEnter_savedIe (s : State) : (guardEnter s).savedIe = s.ie := rfl
@[simp] theorem guardEnter_fgPc (s : State) : (guardEnter s).fgPc = s.fgPc := rfl
@[simp] theorem guardEnter_cmd (s : State) : (guardEnter s).cmd = s.cmd := rfl
@[simp] theorem guardEnter_status (s : State) : (guardEnter s).status = s.status := rfl
@[simp] theorem guardEnter_statusValid (s : State) : (guardEnter s).statusValid = s.statusValid := rfl
@[simp] theorem guardEnter_cmdTake (s : State) : (guardEnter s).cmdTake = s.cmdTake := rfl
@[simp] theorem guardEnter_reqReset (s : State) : (guardEnter s).reqReset = s.reqReset := rfl
@[simp] theorem guardEnter_reqBoot (s : State) : (guardEnter s).reqBoot = s.reqBoot := rfl
@[simp] theorem guardEnter_cmdPort (s : State) : (guardEnter s).cmdPort = s.cmdPort := rfl
@[simp] theorem guardEnter_inputs (s : State) : (guardEnter s).inputs = s.inputs := rfl
@[simp] theorem guardEnter_outputs (s : State) : (guardEnter s).outputs = s.outputs := rfl

/-! ### guardExit -/

@[simp] theorem guardExit_cfg (s : State) : (guardExit s).cfg = s.cfg := rfl
@[simp] theorem guardExit_ax (s : State) : (guardExit s).ax = s.ax := rfl
@[simp] theorem guardExit_ch (s : State) : (guardExit s).ch = s.ch := rfl
@[simp] theorem guardExit_dirline (s : State) : (guardExit s).dirline = s.dirline := rfl
@[simp] theorem guardExit_pend (s : State) : (guardExit s).pend = s.pend := rfl
@[simp] theorem guardExit_overrun (s : State) : (guardExit s).overrun = s.overrun := rfl
@[simp] theorem guardExit_ie (s : State) : (guardExit s).ie = s.savedIe := rfl
@[simp] theorem guardExit_savedIe (s : State) : (guardExit s).savedIe = s.savedIe := rfl
@[simp] theorem guardExit_fgPc (s : State) : (guardExit s).fgPc = s.fgPc := rfl
@[simp] theorem guardExit_cmd (s : State) : (guardExit s).cmd = s.cmd := rfl
@[simp] theorem guardExit_status (s : State) : (guardExit s).status = s.status := rfl
@[simp] theorem guardExit_statusValid (s : State) : (guardExit s).statusValid = s.statusValid := rfl
@[simp] theorem guardExit_cmdTake (s : State) : (guardExit s).cmdTake = s.cmdTake := rfl
@[simp] theorem guardExit_reqReset (s : State) : (guardExit s).reqReset = s.reqReset := rfl
@[simp] theorem guardExit_reqBoot (s : State) : (guardExit s).reqBoot = s.reqBoot := rfl
@[simp] theorem guardExit_cmdPort (s : State) : (guardExit s).cmdPort = s.cmdPort := rfl
@[simp] theorem guardExit_inputs (s : State) : (guardExit s).inputs = s.inputs := rfl
@[simp] theorem guardExit_outputs (s : State) : (guardExit s).outputs = s.outputs := rfl

/-! ### takeRecord -/

@[simp] theorem takeRecord_cfg (s : State) : (takeRecord s).cfg = s.cfg := rfl
@[simp] theorem takeRecord_ax (s : State) : (takeRecord s).ax = s.ax := rfl
@[simp] theorem takeRecord_ch (s : State) : (takeRecord s).ch = s.ch := rfl
@[simp] theorem takeRecord_dirline (s : State) : (takeRecord s).dirline = s.dirline := rfl
@[simp] theorem takeRecord_pend (s : State) : (takeRecord s).pend = s.pend := rfl
@[simp] theorem takeRecord_overrun (s : State) : (takeRecord s).overrun = s.overrun := rfl
@[simp] theorem takeRecord_ie (s : State) : (takeRecord s).ie = s.ie := rfl
@[simp] theorem takeRecord_savedIe (s : State) : (takeRecord s).savedIe = s.savedIe := rfl
@[simp] theorem takeRecord_fgPc (s : State) : (takeRecord s).fgPc = s.fgPc := rfl
@[simp] theorem takeRecord_cmd (s : State) : (takeRecord s).cmd = s.cmd := rfl
@[simp] theorem takeRecord_status (s : State) : (takeRecord s).status = s.status := rfl
@[simp] theorem takeRecord_statusValid (s : State) : (takeRecord s).statusValid = s.statusValid := rfl
@[simp] theorem takeRecord_cmdTake (s : State) : (takeRecord s).cmdTake = true := rfl
@[simp] theorem takeRecord_reqReset (s : State) : (takeRecord s).reqReset = s.reqReset := rfl
@[simp] theorem takeRecord_reqBoot (s : State) : (takeRecord s).reqBoot = s.reqBoot := rfl
@[simp] theorem takeRecord_cmdPort (s : State) : (takeRecord s).cmdPort = none := rfl
@[simp] theorem takeRecord_inputs (s : State) : (takeRecord s).inputs = s.inputs := rfl
@[simp] theorem takeRecord_outputs (s : State) : (takeRecord s).outputs = s.outputs := rfl

/-! ### The accessors across the updates of other tables -/

@[simp] theorem setAxis_channel (s : State) (i : Nat) (r : AxisRegs) (j : Nat) : (s.setAxis i r).channel j = s.channel j := rfl
@[simp] theorem setAxis_line (s : State) (i : Nat) (r : AxisRegs) (j : Nat) : (s.setAxis i r).line j = s.line j := rfl
@[simp] theorem setAxis_pending (s : State) (i : Nat) (r : AxisRegs) (j : Nat) : (s.setAxis i r).pending j = s.pending j := rfl
@[simp] theorem setAxis_overran (s : State) (i : Nat) (r : AxisRegs) (j : Nat) : (s.setAxis i r).overran j = s.overran j := rfl
@[simp] theorem setChannel_axis (s : State) (c : Nat) (r : ChannelRegs) (j : Nat) : (s.setChannel c r).axis j = s.axis j := rfl
@[simp] theorem setChannel_line (s : State) (c : Nat) (r : ChannelRegs) (j : Nat) : (s.setChannel c r).line j = s.line j := rfl
@[simp] theorem setChannel_pending (s : State) (c : Nat) (r : ChannelRegs) (j : Nat) : (s.setChannel c r).pending j = s.pending j := rfl
@[simp] theorem setChannel_overran (s : State) (c : Nat) (r : ChannelRegs) (j : Nat) : (s.setChannel c r).overran j = s.overran j := rfl
@[simp] theorem setLine_axis (s : State) (i : Nat) (b : Bool) (j : Nat) : (s.setLine i b).axis j = s.axis j := rfl
@[simp] theorem setLine_channel (s : State) (i : Nat) (b : Bool) (j : Nat) : (s.setLine i b).channel j = s.channel j := rfl
@[simp] theorem setLine_pending (s : State) (i : Nat) (b : Bool) (j : Nat) : (s.setLine i b).pending j = s.pending j := rfl
@[simp] theorem setLine_overran (s : State) (i : Nat) (b : Bool) (j : Nat) : (s.setLine i b).overran j = s.overran j := rfl
@[simp] theorem setOn_axis (s : State) (c : Nat) (b : Bool) (j : Nat) : (s.setOn c b).axis j = s.axis j := rfl
@[simp] theorem setOn_line (s : State) (c : Nat) (b : Bool) (j : Nat) : (s.setOn c b).line j = s.line j := rfl
@[simp] theorem setOn_pending (s : State) (c : Nat) (b : Bool) (j : Nat) : (s.setOn c b).pending j = s.pending j := rfl
@[simp] theorem setOn_overran (s : State) (c : Nat) (b : Bool) (j : Nat) : (s.setOn c b).overran j = s.overran j := rfl
@[simp] theorem apply_axis (s : State) (w : OutputWrite) (j : Nat) : (s.apply w).axis j = s.axis j := by cases w <;> rfl
@[simp] theorem apply_pending (s : State) (w : OutputWrite) (j : Nat) : (s.apply w).pending j = s.pending j := by cases w <;> rfl
@[simp] theorem apply_overran (s : State) (w : OutputWrite) (j : Nat) : (s.apply w).overran j = s.overran j := by cases w <;> rfl
@[simp] theorem output_axis (s : State) (w : OutputWrite) (j : Nat) : (s.output w).axis j = s.axis j := by cases w <;> rfl
@[simp] theorem output_pending (s : State) (w : OutputWrite) (j : Nat) : (s.output w).pending j = s.pending j := by cases w <;> rfl
@[simp] theorem output_overran (s : State) (w : OutputWrite) (j : Nat) : (s.output w).overran j = s.overran j := by cases w <;> rfl
@[simp] theorem apply_line_ch (s : State) (i : Nat) (b : Bool) : (s.apply (.line i b)).ch = s.ch := rfl
@[simp] theorem apply_line_channel (s : State) (i : Nat) (b : Bool) (c : Nat) : (s.apply (.line i b)).channel c = s.channel c := rfl
@[simp] theorem apply_ctl_dirline (s : State) (c : Nat) (b : Byte) : (s.apply (.ctl c b)).dirline = s.dirline := rfl
@[simp] theorem apply_ctl_line (s : State) (c : Nat) (b : Byte) (j : Nat) : (s.apply (.ctl c b)).line j = s.line j := rfl
@[simp] theorem apply_psc_dirline (s : State) (c k : Nat) : (s.apply (.psc c k)).dirline = s.dirline := rfl
@[simp] theorem apply_psc_line (s : State) (c k : Nat) (j : Nat) : (s.apply (.psc c k)).line j = s.line j := rfl
@[simp] theorem apply_top_dirline (s : State) (c : Nat) (v : Word16) : (s.apply (.top c v)).dirline = s.dirline := rfl
@[simp] theorem apply_top_line (s : State) (c : Nat) (v : Word16) (j : Nat) : (s.apply (.top c v)).line j = s.line j := rfl
@[simp] theorem output_channel (s : State) (w : OutputWrite) (c : Nat) : (s.output w).channel c = (s.apply w).channel c := rfl
@[simp] theorem output_line (s : State) (w : OutputWrite) (i : Nat) : (s.output w).line i = (s.apply w).line i := rfl
@[simp] theorem setPending_axis (s : State) (i : Nat) (b : Bool) (j : Nat) : (s.setPending i b).axis j = s.axis j := rfl
@[simp] theorem setPending_channel (s : State) (i : Nat) (b : Bool) (j : Nat) : (s.setPending i b).channel j = s.channel j := rfl
@[simp] theorem setPending_line (s : State) (i : Nat) (b : Bool) (j : Nat) : (s.setPending i b).line j = s.line j := rfl
@[simp] theorem setPending_overran (s : State) (i : Nat) (b : Bool) (j : Nat) : (s.setPending i b).overran j = s.overran j := rfl
@[simp] theorem setOverrun_axis (s : State) (i : Nat) (j : Nat) : (s.setOverrun i).axis j = s.axis j := rfl
@[simp] theorem setOverrun_channel (s : State) (i : Nat) (j : Nat) : (s.setOverrun i).channel j = s.channel j := rfl
@[simp] theorem setOverrun_line (s : State) (i : Nat) (j : Nat) : (s.setOverrun i).line j = s.line j := rfl
@[simp] theorem setOverrun_pending (s : State) (i : Nat) (j : Nat) : (s.setOverrun i).pending j = s.pending j := rfl
@[simp] theorem setFreq_channel (s : State) (i : Nat) (f : Word16) (j : Nat) : (s.setFreq i f).channel j = s.channel j := rfl
@[simp] theorem setFreq_line (s : State) (i : Nat) (f : Word16) (j : Nat) : (s.setFreq i f).line j = s.line j := rfl
@[simp] theorem setFreq_pending (s : State) (i : Nat) (f : Word16) (j : Nat) : (s.setFreq i f).pending j = s.pending j := rfl
@[simp] theorem setFreq_overran (s : State) (i : Nat) (f : Word16) (j : Nat) : (s.setFreq i f).overran j = s.overran j := rfl
@[simp] theorem setPos_channel (s : State) (i : Nat) (p : Word16) (j : Nat) : (s.setPos i p).channel j = s.channel j := rfl
@[simp] theorem setPos_line (s : State) (i : Nat) (p : Word16) (j : Nat) : (s.setPos i p).line j = s.line j := rfl
@[simp] theorem setPos_pending (s : State) (i : Nat) (p : Word16) (j : Nat) : (s.setPos i p).pending j = s.pending j := rfl
@[simp] theorem setPos_overran (s : State) (i : Nat) (p : Word16) (j : Nat) : (s.setPos i p).overran j = s.overran j := rfl
@[simp] theorem setDirty_channel (s : State) (i : Nat) (b : Bool) (j : Nat) : (s.setDirty i b).channel j = s.channel j := rfl
@[simp] theorem setDirty_line (s : State) (i : Nat) (b : Bool) (j : Nat) : (s.setDirty i b).line j = s.line j := rfl
@[simp] theorem setDirty_pending (s : State) (i : Nat) (b : Bool) (j : Nat) : (s.setDirty i b).pending j = s.pending j := rfl
@[simp] theorem setDirty_overran (s : State) (i : Nat) (b : Bool) (j : Nat) : (s.setDirty i b).overran j = s.overran j := rfl
@[simp] theorem setPhase_axis (s : State) (ph : Phase) (j : Nat) : (s.setPhase ph).axis j = s.axis j := rfl
@[simp] theorem setPhase_channel (s : State) (ph : Phase) (j : Nat) : (s.setPhase ph).channel j = s.channel j := rfl
@[simp] theorem setPhase_line (s : State) (ph : Phase) (j : Nat) : (s.setPhase ph).line j = s.line j := rfl
@[simp] theorem setPhase_pending (s : State) (ph : Phase) (j : Nat) : (s.setPhase ph).pending j = s.pending j := rfl
@[simp] theorem setPhase_overran (s : State) (ph : Phase) (j : Nat) : (s.setPhase ph).overran j = s.overran j := rfl
@[simp] theorem startTurn_axis (s : State) (j : Nat) : s.startTurn.axis j = s.axis j := rfl
@[simp] theorem startTurn_channel (s : State) (j : Nat) : s.startTurn.channel j = s.channel j := rfl
@[simp] theorem startTurn_line (s : State) (j : Nat) : s.startTurn.line j = s.line j := rfl
@[simp] theorem startTurn_pending (s : State) (j : Nat) : s.startTurn.pending j = s.pending j := rfl
@[simp] theorem startTurn_overran (s : State) (j : Nat) : s.startTurn.overran j = s.overran j := rfl
@[simp] theorem guardEnter_axis (s : State) (j : Nat) : (guardEnter s).axis j = s.axis j := rfl
@[simp] theorem guardEnter_channel (s : State) (j : Nat) : (guardEnter s).channel j = s.channel j := rfl
@[simp] theorem guardEnter_line (s : State) (j : Nat) : (guardEnter s).line j = s.line j := rfl
@[simp] theorem guardEnter_pending (s : State) (j : Nat) : (guardEnter s).pending j = s.pending j := rfl
@[simp] theorem guardEnter_overran (s : State) (j : Nat) : (guardEnter s).overran j = s.overran j := rfl
@[simp] theorem guardExit_axis (s : State) (j : Nat) : (guardExit s).axis j = s.axis j := rfl
@[simp] theorem guardExit_channel (s : State) (j : Nat) : (guardExit s).channel j = s.channel j := rfl
@[simp] theorem guardExit_line (s : State) (j : Nat) : (guardExit s).line j = s.line j := rfl
@[simp] theorem guardExit_pending (s : State) (j : Nat) : (guardExit s).pending j = s.pending j := rfl
@[simp] theorem guardExit_overran (s : State) (j : Nat) : (guardExit s).overran j = s.overran j := rfl
@[simp] theorem takeRecord_axis (s : State) (j : Nat) : (takeRecord s).axis j = s.axis j := rfl
@[simp] theorem takeRecord_channel (s : State) (j : Nat) : (takeRecord s).channel j = s.channel j := rfl
@[simp] theorem takeRecord_line (s : State) (j : Nat) : (takeRecord s).line j = s.line j := rfl
@[simp] theorem takeRecord_pending (s : State) (j : Nat) : (takeRecord s).pending j = s.pending j := rfl
@[simp] theorem takeRecord_overran (s : State) (j : Nat) : (takeRecord s).overran j = s.overran j := rfl

/-! ### Reading a table after a write to it -/

theorem axis_setAxis_self (s : State) (i : Nat) (r : AxisRegs) (h : i < s.ax.length) : (s.setAxis i r).axis i = r := by
  simp [State.axis, h]

theorem axis_setAxis_ne (s : State) (i j : Nat) (r : AxisRegs) (h : i ≠ j) : (s.setAxis i r).axis j = s.axis j := by
  simp [State.axis, h]

theorem channel_setChannel_self (s : State) (c : Nat) (r : ChannelRegs) (h : c < s.ch.length) :
    (s.setChannel c r).channel c = r := by
  simp [State.channel, h]

theorem channel_setChannel_ne (s : State) (c d : Nat) (r : ChannelRegs) (h : c ≠ d) :
    (s.setChannel c r).channel d = s.channel d := by
  simp [State.channel, h]

theorem line_setLine_self (s : State) (i : Nat) (b : Bool) (h : i < s.dirline.length) : (s.setLine i b).line i = b := by
  simp [State.line, h]

theorem line_setLine_ne (s : State) (i j : Nat) (b : Bool) (h : i ≠ j) : (s.setLine i b).line j = s.line j := by
  simp [State.line, h]

theorem pending_setPending_self (s : State) (i : Nat) (b : Bool) (h : i < s.pend.length) :
    (s.setPending i b).pending i = b := by
  simp [State.pending, h]

theorem pending_setPending_ne (s : State) (i j : Nat) (b : Bool) (h : i ≠ j) :
    (s.setPending i b).pending j = s.pending j := by
  simp [State.pending, h]

theorem overran_setOverrun_self (s : State) (i : Nat) (h : i < s.overrun.length) : (s.setOverrun i).overran i = true := by
  simp [State.overran, h]

theorem overran_setOverrun_ne (s : State) (i j : Nat) (h : i ≠ j) : (s.setOverrun i).overran j = s.overran j := by
  simp [State.overran, h]

/-- An output write to a channel changes the one register it names. -/
theorem channel_apply_ctl (s : State) (c : Nat) (b : Byte) (h : c < s.ch.length) :
    (s.apply (.ctl c b)).channel c = { s.channel c with ctl := b } :=
  channel_setChannel_self _ _ _ h

theorem channel_apply_psc (s : State) (c k : Nat) (h : c < s.ch.length) :
    (s.apply (.psc c k)).channel c = { s.channel c with psc := k } :=
  channel_setChannel_self _ _ _ h

theorem channel_apply_top (s : State) (c : Nat) (v : Word16) (h : c < s.ch.length) :
    (s.apply (.top c v)).channel c = { s.channel c with top := v } :=
  channel_setChannel_self _ _ _ h

@[simp] theorem apply_ch_length (s : State) (w : OutputWrite) : (s.apply w).ch.length = s.ch.length := by
  cases w <;> simp [State.apply]

@[simp] theorem apply_dirline_length (s : State) (w : OutputWrite) : (s.apply w).dirline.length = s.dirline.length := by
  cases w <;> simp [State.apply]

theorem channel_setOn_self (s : State) (c : Nat) (b : Bool) (h : c < s.ch.length) :
    (s.setOn c b).channel c = { s.channel c with isOn := b } :=
  channel_setChannel_self _ _ _ h

theorem channel_setOn_ne (s : State) (c d : Nat) (b : Bool) (h : c ≠ d) : (s.setOn c b).channel d = s.channel d :=
  channel_setChannel_ne _ _ _ _ h

/-- A write of the value already there changes nothing, inside the table or out of it. -/
theorem setAxis_axis (s : State) (i : Nat) : s.setAxis i (s.axis i) = s := by
  have h : s.ax.set i (s.ax.getD i AxisRegs.absent) = s.ax := by
    apply List.ext_getElem?
    intro j
    by_cases hj : i = j
    · subst hj
      by_cases hl : i < s.ax.length <;> simp [hl]
    · simp [hj]
  simp only [State.setAxis, State.axis, h]

theorem setChannel_channel (s : State) (c : Nat) : s.setChannel c (s.channel c) = s := by
  have h : s.ch.set c (s.ch.getD c ChannelRegs.absent) = s.ch := by
    apply List.ext_getElem?
    intro j
    by_cases hj : c = j
    · subst hj
      by_cases hl : c < s.ch.length <;> simp [hl]
    · simp [hj]
  simp only [State.setChannel, State.channel, h]

end Sys2Proof.Machine
end

