-- ==== Sys2Proof/Laws/Checks.lean ====
section
/-! SUPPORT. What the checks of an operation answer, and what a valid state gives (R9, R62, R80, R186). -/

namespace Sys2Proof.Machine

variable {s t : State} {r : Result}

theorem State.valid_iff : s.valid = true ↔ s.cfg.accepted = true ∧ s.fits = true := by
  simp [State.valid]

/-- In a valid state the first check passes. -/
@[simp] theorem whenValid_of_valid (h : s.valid = true) : whenValid s r = r := by
  obtain ⟨ha, hf⟩ := State.valid_iff.mp h
  simp [whenValid, ha, hf]

/-- A next state comes from a valid state. -/
theorem whenValid_next : whenValid s r = .next t ↔ s.valid = true ∧ r = .next t := by
  unfold whenValid
  rw [State.valid_iff]
  split
  · split <;> simp [*]
  · simp [*]

theorem whenIndex_next {i : Nat} : whenIndex i s r = .next t ↔ i < s.cfg.nAx ∧ r = .next t := by
  unfold whenIndex
  split <;> simp [*]

theorem whenRecord_next {bytes : List Byte} :
    whenRecord bytes s r = .next t ↔ bytes.length = s.cfg.cmdLen ∧ r = .next t := by
  unfold whenRecord
  split <;> simp [*]

/-- A step that is not enabled leaves the state. -/
theorem whenEnabled_next {b : Bool} :
    whenEnabled b s r = .next t ↔ (b = true ∧ r = .next t) ∨ (b = false ∧ t = s) := by
  cases b <;> simp [whenEnabled, eq_comm]

@[simp] theorem whenEnabled_true : whenEnabled true s r = r := rfl

@[simp] theorem whenEnabled_false : whenEnabled false s r = .next s := rfl

@[simp] theorem whenIndex_of_lt {i : Nat} (h : i < s.cfg.nAx) : whenIndex i s r = r := if_pos h

@[simp] theorem whenRecord_of_length {bytes : List Byte} (h : bytes.length = s.cfg.cmdLen) :
    whenRecord bytes s r = r := if_pos h

/-! ## What a valid state gives -/

theorem State.valid_accepted (h : s.valid = true) : s.cfg.accepted = true := (State.valid_iff.mp h).1

theorem State.fits_iff : s.fits = true ↔
    s.tablesFit = true ∧ s.indexesFit = true ∧ s.phaseFits = true ∧ s.buffersFit = true := by
  simp only [State.fits, Bool.and_eq_true]
  tauto

theorem State.tablesFit_iff : s.tablesFit = true ↔
    s.ax.length = s.cfg.nAx ∧ s.ch.length = s.cfg.nAx ∧ s.dirline.length = s.cfg.nAx ∧ s.pend.length = s.cfg.nAx ∧
      s.overrun.length = s.cfg.nAx := by
  simp only [State.tablesFit, Bool.and_eq_true, decide_eq_true_eq]
  tauto

theorem State.indexesFit_iff : s.indexesFit = true ↔
    ∀ c, c < s.cfg.nAx → (s.channel c).psc < (s.cfg.channel c).ratios.length := by
  simp [State.indexesFit]

theorem State.buffersFit_iff : s.buffersFit = true ↔
    s.cmd.wf = true ∧ s.cmd.within s.cfg.cmdLen = true ∧ s.status.wf = true ∧
      s.status.within s.cfg.statusLen = true := by
  simp only [State.buffersFit, Bool.and_eq_true]
  tauto

/-- The lengths of the tables of a valid state. -/
theorem State.valid_tables (h : s.valid = true) :
    s.ax.length = s.cfg.nAx ∧ s.ch.length = s.cfg.nAx ∧ s.dirline.length = s.cfg.nAx ∧ s.pend.length = s.cfg.nAx ∧
      s.overrun.length = s.cfg.nAx :=
  State.tablesFit_iff.mp (State.fits_iff.mp (State.valid_iff.mp h).2).1

theorem State.valid_psc (h : s.valid = true) {c : Nat} (hc : c < s.cfg.nAx) :
    (s.channel c).psc < (s.cfg.channel c).ratios.length :=
  State.indexesFit_iff.mp (State.fits_iff.mp (State.valid_iff.mp h).2).2.1 c hc

theorem State.valid_buffers (h : s.valid = true) :
    s.cmd.wf = true ∧ s.cmd.within s.cfg.cmdLen = true ∧ s.status.wf = true ∧
      s.status.within s.cfg.statusLen = true :=
  State.buffersFit_iff.mp (State.fits_iff.mp (State.valid_iff.mp h).2).2.2.2

/-- A state is valid when it differs from a valid one by tables of the same sizes with indexes in range, a phase that
exists and buffers that fit. -/
theorem State.valid_of_parts (h : s.valid = true) (hcfg : t.cfg = s.cfg) (hax : t.ax.length = s.ax.length)
    (hch : t.ch.length = s.ch.length)
    (hpsc : ∀ c, c < s.cfg.nAx → (t.channel c).psc < (s.cfg.channel c).ratios.length)
    (hl : t.dirline.length = s.dirline.length) (hp : t.pend.length = s.pend.length)
    (ho : t.overrun.length = s.overrun.length) (hph : t.phaseFits = true) (hb : t.buffersFit = true) :
    t.valid = true := by
  obtain ⟨ha, hf⟩ := State.valid_iff.mp h
  obtain ⟨h1, -, -, -⟩ := State.fits_iff.mp hf
  refine State.valid_iff.mpr ⟨hcfg ▸ ha, State.fits_iff.mpr ⟨?_, ?_, hph, hb⟩⟩
  · rw [State.tablesFit_iff] at h1 ⊢
    rw [hax, hch, hl, hp, ho, hcfg]
    exact h1
  · rw [State.indexesFit_iff, hcfg]
    exact hpsc

theorem State.valid_phase (h : s.valid = true) : s.phaseFits = true := (State.fits_iff.mp (State.valid_iff.mp h).2).2.2.1

/-- Writes to the axis table, the direction lines and the latches keep a state valid. -/
theorem State.valid_of_same_channels (h : s.valid = true) (hcfg : t.cfg = s.cfg) (hax : t.ax.length = s.ax.length)
    (hch : t.ch = s.ch) (hl : t.dirline.length = s.dirline.length) (hp : t.pend.length = s.pend.length)
    (ho : t.overrun.length = s.overrun.length) (hph : t.fgPc = s.fgPc) (hc : t.cmd = s.cmd)
    (hst : t.status = s.status) : t.valid = true := by
  refine State.valid_of_parts h hcfg hax (by rw [hch]) (fun c hc => ?_) hl hp ho ?_ ?_
  · have : t.channel c = s.channel c := by simp only [State.channel, hch]
    rw [this]
    exact State.valid_psc h hc
  · have := State.valid_phase h
    rw [State.phaseFits] at this ⊢
    rw [hph, hcfg]
    exact this
  · have := State.buffersFit_iff.mpr (State.valid_buffers h)
    rw [State.buffersFit] at this ⊢
    rw [hc, hst, hcfg]
    exact this

theorem State.setAxis_valid (h : s.valid = true) (i : Nat) (r : AxisRegs) : (s.setAxis i r).valid = true :=
  State.valid_of_same_channels h rfl (by simp) rfl rfl rfl rfl rfl rfl rfl

theorem State.setLine_valid (h : s.valid = true) (i : Nat) (b : Bool) : (s.setLine i b).valid = true :=
  State.valid_of_same_channels h rfl rfl rfl (by simp) rfl rfl rfl rfl rfl

theorem State.setPending_valid (h : s.valid = true) (i : Nat) (b : Bool) : (s.setPending i b).valid = true :=
  State.valid_of_same_channels h rfl rfl rfl rfl (by simp) rfl rfl rfl rfl

theorem State.setOverrun_valid (h : s.valid = true) (i : Nat) : (s.setOverrun i).valid = true :=
  State.valid_of_same_channels h rfl rfl rfl rfl rfl (by simp) rfl rfl rfl

theorem State.startTurn_valid (h : s.valid = true) : s.startTurn.valid = true :=
  State.valid_of_same_channels h rfl rfl rfl rfl rfl rfl rfl rfl rfl

theorem guardEnter_valid (h : s.valid = true) : (guardEnter s).valid = true :=
  State.valid_of_same_channels h rfl rfl rfl rfl rfl rfl rfl rfl rfl

theorem guardExit_valid (h : s.valid = true) : (guardExit s).valid = true :=
  State.valid_of_same_channels h rfl rfl rfl rfl rfl rfl rfl rfl rfl

/-- A channel write keeps a state valid when the index it stores is in its list. -/
theorem State.setChannel_valid (h : s.valid = true) (c : Nat) (r : ChannelRegs)
    (hr : c < s.cfg.nAx → r.psc < (s.cfg.channel c).ratios.length) : (s.setChannel c r).valid = true := by
  refine State.valid_of_parts h rfl rfl (by simp) (fun d hd => ?_) rfl rfl rfl
    (show s.phaseFits = true from State.valid_phase h)
    (show s.buffersFit = true from State.buffersFit_iff.mpr (State.valid_buffers h))
  by_cases hcd : c = d
  · subst hcd
    rw [channel_setChannel_self _ _ _ (by have := (State.valid_tables h).2.1; omega)]
    exact hr hd
  · rw [channel_setChannel_ne _ _ _ _ hcd]
    exact State.valid_psc h hd

/-- An output write keeps a state valid when the prescaler index it stores, if it stores one, is in its list. -/
theorem State.output_valid (h : s.valid = true) (w : OutputWrite)
    (hw : ∀ c k, w = .psc c k → c < s.cfg.nAx → k < (s.cfg.channel c).ratios.length) : (s.output w).valid = true := by
  cases w with
  | ctl c b => exact State.setChannel_valid h c _ fun hc => State.valid_psc h hc
  | psc c k => exact State.setChannel_valid h c _ (hw c k rfl)
  | top c v => exact State.setChannel_valid h c _ fun hc => State.valid_psc h hc
  | line i b => exact State.setLine_valid h i b

theorem State.setOn_valid (h : s.valid = true) (c : Nat) (b : Bool) : (s.setOn c b).valid = true :=
  State.setChannel_valid h c _ fun hc => State.valid_psc h hc

end Sys2Proof.Machine
end

