-- ==== Sys2Proof/Laws/Decode.lean ====
section
/-! SUPPORT. The small lemmas of the record codec: slots, lengths and the choice on the opcode byte (R80, R81, R87). -/

namespace Sys2Proof

@[simp] theorem encodeSlot_length (sl : Slot) : (encodeSlot sl).length = 4 := rfl

@[simp] theorem flatMap_encodeSlot_length (slots : List Slot) : (slots.flatMap encodeSlot).length = 4 * slots.length := by
  induction slots with
  | nil => rfl
  | cons sl slots ih => rw [List.flatMap_cons, List.length_append, ih, encodeSlot_length, List.length_cons]; omega

theorem encodeRecord_length (op : Byte) (p : Payload) : (encodeRecord op p).length = 2 + 4 * p.slots.length := by
  simp only [encodeRecord, List.length_cons, flatMap_encodeSlot_length]
  omega

/-- A record that fits has the length of the format (R80). -/
theorem encodeRecord_length_of_fits {cfg : Cfg} {p : Payload} (op : Byte) (h : p.fits cfg = true) :
    (encodeRecord op p).length = cfg.cmdLen := by
  have : p.slots.length = cfg.nAx := by simpa [Payload.fits] using h
  rw [encodeRecord_length, this, Cfg.cmdLen]

/-- Reading a slot back from its four bytes. -/
theorem decodeSlots_encodeSlot (sl : Slot) (rest : List Byte) :
    decodeSlots (encodeSlot sl ++ rest) = sl :: decodeSlots rest := by
  simp only [encodeSlot, List.cons_append, List.nil_append, decodeSlots, Machine.word16_lowByte_highByte]

/-- Four bytes make one slot, no bit dropped. -/
theorem encodeSlot_decoded (b0 b1 b2 b3 : Byte) :
    encodeSlot { freq := word16 b0 b1, pos := word16 b2 b3 } = [b0, b1, b2, b3] := by
  simp only [encodeSlot, Machine.lowByte_word16, Machine.highByte_word16]

@[simp] theorem opKind_opReset (cfg : Cfg) : opKind cfg cfg.opReset = .reset := by simp [opKind]

theorem opKind_opBoot {cfg : Cfg} (h : cfg.accepted = true) : opKind cfg cfg.opBoot = .boot := by
  have hn := Cfg.opcodes_nodup h
  simp only [List.nodup_cons, List.mem_cons, not_or] at hn
  rw [opKind, if_neg (Ne.symm hn.2.2.1.1), if_pos rfl]

theorem opKind_opSet {cfg : Cfg} (h : cfg.accepted = true) : opKind cfg cfg.opSet = .set := by
  have hn := Cfg.opcodes_nodup h
  simp only [List.nodup_cons, List.mem_cons, not_or] at hn
  rw [opKind, if_neg hn.2.1.1, if_neg hn.2.1.2.1, if_pos rfl]

theorem opKind_opGet {cfg : Cfg} (h : cfg.accepted = true) : opKind cfg cfg.opGet = .get := by
  have hn := Cfg.opcodes_nodup h
  simp only [List.nodup_cons, List.mem_cons, not_or] at hn
  rw [opKind, if_neg hn.1.2.1, if_neg hn.1.2.2.1, if_neg hn.1.1, if_pos rfl]

theorem opKind_unrecognized {cfg : Cfg} {op : Byte} (h : cfg.recognises op = false) : opKind cfg op = .unrecognized := by
  simp only [Cfg.recognises, Bool.or_eq_false_iff, beq_eq_false_iff_ne] at h
  rw [opKind, if_neg h.1.2, if_neg h.2, if_neg h.1.1.2, if_neg h.1.1.1]

end Sys2Proof
end

