-- ==== Sys2Proof/Laws/Derivation.lean ====
section
/-! SUPPORT. The search of the derivator, said once (R103): which index it finds, and that the index and the reload value
stay in range. -/

namespace Sys2Proof.Machine

theorem divFloor_eq {a b : Nat} (h : 0 < b) : divFloor a b = a / b := by
  rw [divFloor, if_neg (by omega)]

theorem ratioAt_mem {ch : ChannelCfg} {k : Nat} (h : k < ch.ratios.length) : ratioAt ch k ∈ ch.ratios := by
  simp [ratioAt, List.getD_eq_getElem?_getD, h]

theorem ratioAt_lt {ch : ChannelCfg} (ha : ch.ratios.Pairwise (· < ·)) {j k : Nat} (hjk : j < k)
    (h : k < ch.ratios.length) : ratioAt ch j < ratioAt ch k := by
  have hj : j < ch.ratios.length := lt_trans hjk h
  simpa [ratioAt, List.getD_eq_getElem?_getD, h, hj] using List.pairwise_iff_getElem.mp ha j k hj h hjk

theorem reloadAt_eq {ch : ChannelCfg} (fClk : Nat) {f k : Nat} (hs : 1 ≤ ch.scale) (hf : 1 ≤ f)
    (hp : 1 ≤ ratioAt ch k) : reloadAt fClk ch f k = fClk / (ch.scale * f * ratioAt ch k) :=
  divFloor_eq (Nat.mul_pos (Nat.mul_pos hs hf) hp)

/-- What the search from index `k` with enough fuel finds: an index not below `k`, in the list, whose reload value fits
unless it is the last, past indexes that do not fit. -/
theorem searchFrom_spec (fClk : Nat) (ch : ChannelCfg) (f : Nat) (fuel k : Nat) (hk : k < ch.ratios.length)
    (hfuel : ch.ratios.length ≤ k + 1 + fuel) :
    k ≤ searchFrom fClk ch f fuel k ∧ searchFrom fClk ch f fuel k < ch.ratios.length ∧
      (∀ j, k ≤ j → j < searchFrom fClk ch f fuel k → ch.cmax < reloadAt fClk ch f j) ∧
        (reloadAt fClk ch f (searchFrom fClk ch f fuel k) ≤ ch.cmax ∨
          searchFrom fClk ch f fuel k + 1 = ch.ratios.length) := by
  induction fuel generalizing k with
  | zero =>
    simp only [searchFrom]
    exact ⟨le_rfl, hk, fun j h1 h2 => absurd h2 (by omega), .inr (by omega)⟩
  | succ fuel ih =>
    rw [searchFrom]
    split
    · next h =>
      obtain ⟨h1, h2, h3, h4⟩ := ih (k + 1) h.2 (by omega)
      refine ⟨by omega, h2, fun j hj hlt => ?_, h4⟩
      rcases Nat.eq_or_lt_of_le hj with rfl | hj
      · exact h.1
      · exact h3 j hj hlt
    · next h => exact ⟨le_rfl, hk, fun j h1 h2 => absurd h2 (by omega), by omega⟩

theorem derivePsc_spec (fClk : Nat) (ch : ChannelCfg) (f : Nat) (h : ch.ratios ≠ []) :
    derivePsc fClk ch f < ch.ratios.length ∧ (∀ j, j < derivePsc fClk ch f → ch.cmax < reloadAt fClk ch f j) ∧
      (reloadAt fClk ch f (derivePsc fClk ch f) ≤ ch.cmax ∨ derivePsc fClk ch f + 1 = ch.ratios.length) := by
  have hl : 0 < ch.ratios.length := List.length_pos_iff.mpr h
  obtain ⟨-, h2, h3, h4⟩ := searchFrom_spec fClk ch f (ch.ratios.length - 1) 0 hl (by omega)
  exact ⟨h2, fun j hj => h3 j (Nat.zero_le j) hj, h4⟩

/-- The index of R103 is the only one with its two properties. -/
theorem derivePsc_unique (fClk : Nat) (ch : ChannelCfg) (f k : Nat) (hk : k < ch.ratios.length)
    (hskip : ∀ j, j < k → ch.cmax < reloadAt fClk ch f j)
    (hfit : reloadAt fClk ch f k ≤ ch.cmax ∨ k + 1 = ch.ratios.length) : derivePsc fClk ch f = k := by
  obtain ⟨h1, h2, h3⟩ := derivePsc_spec fClk ch f (by intro h; simp [h] at hk)
  rcases lt_trichotomy (derivePsc fClk ch f) k with h | h | h
  · have := hskip _ h
    omega
  · exact h
  · have := h2 _ h
    omega

theorem deriveTop_le (fClk : Nat) (ch : ChannelCfg) (f : Nat) : deriveTop fClk ch f ≤ ch.cmax := min_le_right _ _

end Sys2Proof.Machine
end

