-- ==== Sys2Proof/Laws/Ops.lean ====
section
/-! SUPPORT. The shared operations on channels, the tracker's operations and the loops over the axes, each said once:
what it leaves alone, and what it writes. -/

namespace Sys2Proof.Machine

/-! ## ENABLE, DISABLE and the parameter writes touch the channel table alone (R126), in the order of R105 -/

@[simp] theorem disableChannel_cfg (c : Nat) (s : State) : (disableChannel c s).cfg = s.cfg := rfl
@[simp] theorem disableChannel_ax (c : Nat) (s : State) : (disableChannel c s).ax = s.ax := rfl
@[simp] theorem disableChannel_dirline (c : Nat) (s : State) : (disableChannel c s).dirline = s.dirline := rfl
@[simp] theorem disableChannel_pend (c : Nat) (s : State) : (disableChannel c s).pend = s.pend := rfl
@[simp] theorem disableChannel_overrun (c : Nat) (s : State) : (disableChannel c s).overrun = s.overrun := rfl
@[simp] theorem disableChannel_ie (c : Nat) (s : State) : (disableChannel c s).ie = s.ie := rfl
@[simp] theorem disableChannel_savedIe (c : Nat) (s : State) : (disableChannel c s).savedIe = s.savedIe := rfl
@[simp] theorem disableChannel_fgPc (c : Nat) (s : State) : (disableChannel c s).fgPc = s.fgPc := rfl
@[simp] theorem disableChannel_cmd (c : Nat) (s : State) : (disableChannel c s).cmd = s.cmd := rfl
@[simp] theorem disableChannel_status (c : Nat) (s : State) : (disableChannel c s).status = s.status := rfl
@[simp] theorem disableChannel_statusValid (c : Nat) (s : State) : (disableChannel c s).statusValid = s.statusValid := rfl
@[simp] theorem disableChannel_cmdTake (c : Nat) (s : State) : (disableChannel c s).cmdTake = s.cmdTake := rfl
@[simp] theorem disableChannel_reqReset (c : Nat) (s : State) : (disableChannel c s).reqReset = s.reqReset := rfl
@[simp] theorem disableChannel_reqBoot (c : Nat) (s : State) : (disableChannel c s).reqBoot = s.reqBoot := rfl
@[simp] theorem disableChannel_cmdPort (c : Nat) (s : State) : (disableChannel c s).cmdPort = s.cmdPort := rfl
@[simp] theorem disableChannel_inputs (c : Nat) (s : State) : (disableChannel c s).inputs = s.inputs := rfl
@[simp] theorem disableChannel_axis (c : Nat) (s : State) (j : Nat) : (disableChannel c s).axis j = s.axis j := rfl
@[simp] theorem disableChannel_line (c : Nat) (s : State) (j : Nat) : (disableChannel c s).line j = s.line j := rfl
@[simp] theorem disableChannel_pending (c : Nat) (s : State) (j : Nat) : (disableChannel c s).pending j = s.pending j := rfl
@[simp] theorem disableChannel_overran (c : Nat) (s : State) (j : Nat) : (disableChannel c s).overran j = s.overran j := rfl

@[simp] theorem enableChannel_cfg (c : Nat) (s : State) : (enableChannel c s).cfg = s.cfg := rfl
@[simp] theorem enableChannel_ax (c : Nat) (s : State) : (enableChannel c s).ax = s.ax := rfl
@[simp] theorem enableChannel_dirline (c : Nat) (s : State) : (enableChannel c s).dirline = s.dirline := rfl
@[simp] theorem enableChannel_pend (c : Nat) (s : State) : (enableChannel c s).pend = s.pend := rfl
@[simp] theorem enableChannel_overrun (c : Nat) (s : State) : (enableChannel c s).overrun = s.overrun := rfl
@[simp] theorem enableChannel_ie (c : Nat) (s : State) : (enableChannel c s).ie = s.ie := rfl
@[simp] theorem enableChannel_savedIe (c : Nat) (s : State) : (enableChannel c s).savedIe = s.savedIe := rfl
@[simp] theorem enableChannel_fgPc (c : Nat) (s : State) : (enableChannel c s).fgPc = s.fgPc := rfl
@[simp] theorem enableChannel_cmd (c : Nat) (s : State) : (enableChannel c s).cmd = s.cmd := rfl
@[simp] theorem enableChannel_status (c : Nat) (s : State) : (enableChannel c s).status = s.status := rfl
@[simp] theorem enableChannel_statusValid (c : Nat) (s : State) : (enableChannel c s).statusValid = s.statusValid := rfl
@[simp] theorem enableChannel_cmdTake (c : Nat) (s : State) : (enableChannel c s).cmdTake = s.cmdTake := rfl
@[simp] theorem enableChannel_reqReset (c : Nat) (s : State) : (enableChannel c s).reqReset = s.reqReset := rfl
@[simp] theorem enableChannel_reqBoot (c : Nat) (s : State) : (enableChannel c s).reqBoot = s.reqBoot := rfl
@[simp] theorem enableChannel_cmdPort (c : Nat) (s : State) : (enableChannel c s).cmdPort = s.cmdPort := rfl
@[simp] theorem enableChannel_inputs (c : Nat) (s : State) : (enableChannel c s).inputs = s.inputs := rfl
@[simp] theorem enableChannel_axis (c : Nat) (s : State) (j : Nat) : (enableChannel c s).axis j = s.axis j := rfl
@[simp] theorem enableChannel_line (c : Nat) (s : State) (j : Nat) : (enableChannel c s).line j = s.line j := rfl
@[simp] theorem enableChannel_pending (c : Nat) (s : State) (j : Nat) : (enableChannel c s).pending j = s.pending j := rfl
@[simp] theorem enableChannel_overran (c : Nat) (s : State) (j : Nat) : (enableChannel c s).overran j = s.overran j := rfl

@[simp] theorem setParameters_cfg (c k t : Nat) (s : State) : (setParameters c k t s).cfg = s.cfg := rfl
@[simp] theorem setParameters_ax (c k t : Nat) (s : State) : (setParameters c k t s).ax = s.ax := rfl
@[simp] theorem setParameters_dirline (c k t : Nat) (s : State) : (setParameters c k t s).dirline = s.dirline := rfl
@[simp] theorem setParameters_pend (c k t : Nat) (s : State) : (setParameters c k t s).pend = s.pend := rfl
@[simp] theorem setParameters_overrun (c k t : Nat) (s : State) : (setParameters c k t s).overrun = s.overrun := rfl
@[simp] theorem setParameters_ie (c k t : Nat) (s : State) : (setParameters c k t s).ie = s.ie := rfl
@[simp] theorem setParameters_savedIe (c k t : Nat) (s : State) : (setParameters c k t s).savedIe = s.savedIe := rfl
@[simp] theorem setParameters_fgPc (c k t : Nat) (s : State) : (setParameters c k t s).fgPc = s.fgPc := rfl
@[simp] theorem setParameters_cmd (c k t : Nat) (s : State) : (setParameters c k t s).cmd = s.cmd := rfl
@[simp] theorem setParameters_status (c k t : Nat) (s : State) : (setParameters c k t s).status = s.status := rfl
@[simp] theorem setParameters_statusValid (c k t : Nat) (s : State) : (setParameters c k t s).statusValid = s.statusValid := rfl
@[simp] theorem setParameters_cmdTake (c k t : Nat) (s : State) : (setParameters c k t s).cmdTake = s.cmdTake := rfl
@[simp] theorem setParameters_reqReset (c k t : Nat) (s : State) : (setParameters c k t s).reqReset = s.reqReset := rfl
@[simp] theorem setParameters_reqBoot (c k t : Nat) (s : State) : (setParameters c k t s).reqBoot = s.reqBoot := rfl
@[simp] theorem setParameters_cmdPort (c k t : Nat) (s : State) : (setParameters c k t s).cmdPort = s.cmdPort := rfl
@[simp] theorem setParameters_inputs (c k t : Nat) (s : State) : (setParameters c k t s).inputs = s.inputs := rfl
@[simp] theorem setParameters_axis (c k t : Nat) (s : State) (j : Nat) : (setParameters c k t s).axis j = s.axis j := rfl
@[simp] theorem setParameters_line (c k t : Nat) (s : State) (j : Nat) : (setParameters c k t s).line j = s.line j := rfl
@[simp] theorem setParameters_pending (c k t : Nat) (s : State) (j : Nat) : (setParameters c k t s).pending j = s.pending j := rfl
@[simp] theorem setParameters_overran (c k t : Nat) (s : State) (j : Nat) : (setParameters c k t s).overran j = s.overran j := rfl

/-- DERIVE touches the channel table alone (R112), and the outside sees its writes. -/
theorem deriveChannel_frame (c f : Nat) (s : State) :
    deriveChannel c f s = { s with ch := (deriveChannel c f s).ch, outputs := (deriveChannel c f s).outputs } := by
  unfold deriveChannel
  split <;> rfl

@[simp] theorem deriveChannel_cfg (c f : Nat) (s : State) : (deriveChannel c f s).cfg = s.cfg := by
  rw [deriveChannel_frame]
@[simp] theorem deriveChannel_ax (c f : Nat) (s : State) : (deriveChannel c f s).ax = s.ax := by
  rw [deriveChannel_frame]
@[simp] theorem deriveChannel_dirline (c f : Nat) (s : State) : (deriveChannel c f s).dirline = s.dirline := by
  rw [deriveChannel_frame]
@[simp] theorem deriveChannel_pend (c f : Nat) (s : State) : (deriveChannel c f s).pend = s.pend := by
  rw [deriveChannel_frame]
@[simp] theorem deriveChannel_overrun (c f : Nat) (s : State) : (deriveChannel c f s).overrun = s.overrun := by
  rw [deriveChannel_frame]
@[simp] theorem deriveChannel_ie (c f : Nat) (s : State) : (deriveChannel c f s).ie = s.ie := by
  rw [deriveChannel_frame]
@[simp] theorem deriveChannel_savedIe (c f : Nat) (s : State) : (deriveChannel c f s).savedIe = s.savedIe := by
  rw [deriveChannel_frame]
@[simp] theorem deriveChannel_fgPc (c f : Nat) (s : State) : (deriveChannel c f s).fgPc = s.fgPc := by
  rw [deriveChannel_frame]
@[simp] theorem deriveChannel_cmd (c f : Nat) (s : State) : (deriveChannel c f s).cmd = s.cmd := by
  rw [deriveChannel_frame]
@[simp] theorem deriveChannel_status (c f : Nat) (s : State) : (deriveChannel c f s).status = s.status := by
  rw [deriveChannel_frame]
@[simp] theorem deriveChannel_statusValid (c f : Nat) (s : State) : (deriveChannel c f s).statusValid = s.statusValid := by
  rw [deriveChannel_frame]
@[simp] theorem deriveChannel_cmdTake (c f : Nat) (s : State) : (deriveChannel c f s).cmdTake = s.cmdTake := by
  rw [deriveChannel_frame]
@[simp] theorem deriveChannel_reqReset (c f : Nat) (s : State) : (deriveChannel c f s).reqReset = s.reqReset := by
  rw [deriveChannel_frame]
@[simp] theorem deriveChannel_reqBoot (c f : Nat) (s : State) : (deriveChannel c f s).reqBoot = s.reqBoot := by
  rw [deriveChannel_frame]
@[simp] theorem deriveChannel_cmdPort (c f : Nat) (s : State) : (deriveChannel c f s).cmdPort = s.cmdPort := by
  rw [deriveChannel_frame]
@[simp] theorem deriveChannel_inputs (c f : Nat) (s : State) : (deriveChannel c f s).inputs = s.inputs := by
  rw [deriveChannel_frame]
@[simp] theorem deriveChannel_axis (c f : Nat) (s : State) (j : Nat) : (deriveChannel c f s).axis j = s.axis j := by
  rw [deriveChannel_frame]; rfl
@[simp] theorem deriveChannel_line (c f : Nat) (s : State) (j : Nat) : (deriveChannel c f s).line j = s.line j := by
  rw [deriveChannel_frame]; rfl
@[simp] theorem deriveChannel_pending (c f : Nat) (s : State) (j : Nat) : (deriveChannel c f s).pending j = s.pending j := by
  rw [deriveChannel_frame]; rfl
@[simp] theorem deriveChannel_overran (c f : Nat) (s : State) (j : Nat) : (deriveChannel c f s).overran j = s.overran j := by
  rw [deriveChannel_frame]; rfl

section Channels

variable (s : State) (c d : Nat)

theorem disableChannel_self (h : c < s.ch.length) :
    (disableChannel c s).channel c =
      { s.channel c with ctl := (s.channel c).ctl &&& ~~~(s.cfg.channel c).csMask, isOn := false } := by
  rw [disableChannel, channel_setOn_self _ _ _ (by simpa using h), output_channel, channel_apply_ctl _ _ _ h]

theorem disableChannel_ne (h : c ≠ d) : (disableChannel c s).channel d = s.channel d :=
  (channel_setOn_ne _ _ _ _ h).trans (channel_setChannel_ne s _ _ _ h)

theorem enableChannel_self (h : c < s.ch.length) :
    (enableChannel c s).channel c =
      { s.channel c with
        ctl := (s.channel c).ctl ||| csCodeAt (s.cfg.channel c) (s.channel c).psc
        isOn := true } := by
  rw [enableChannel, channel_setOn_self _ _ _ (by simpa using h), output_channel, channel_apply_ctl _ _ _ h]

theorem enableChannel_ne (h : c ≠ d) : (enableChannel c s).channel d = s.channel d :=
  (channel_setOn_ne _ _ _ _ h).trans (channel_setChannel_ne s _ _ _ h)

theorem setParameters_self (k t : Nat) (h : c < s.ch.length) :
    (setParameters c k t s).channel c = { s.channel c with psc := k, top := BitVec.ofNat 16 t } := by
  rw [setParameters, output_channel, channel_apply_top _ _ _ (by simpa using h), output_channel, channel_apply_psc _ _ _ h]

theorem setParameters_ne (k t : Nat) (h : c ≠ d) : (setParameters c k t s).channel d = s.channel d :=
  (channel_setChannel_ne (s.output (.psc c k)) _ _ _ h).trans (channel_setChannel_ne s _ _ _ h)

@[simp] theorem disableChannel_ch_length : (disableChannel c s).ch.length = s.ch.length := by
  simp [disableChannel]

@[simp] theorem enableChannel_ch_length : (enableChannel c s).ch.length = s.ch.length := by
  simp [enableChannel]

@[simp] theorem setParameters_ch_length (k t : Nat) : (setParameters c k t s).ch.length = s.ch.length := by
  simp [setParameters]

@[simp] theorem deriveChannel_ch_length (f : Nat) : (deriveChannel c f s).ch.length = s.ch.length := by
  unfold deriveChannel
  split <;> simp

/-- DERIVE of a zero frequency is DISABLE (R102). -/
@[simp] theorem deriveChannel_zero : deriveChannel c 0 s = disableChannel c s := rfl

/-- The channel after DERIVE of a non-zero frequency (R105). -/
theorem deriveChannel_self {f : Nat} (hf : f ≠ 0) (h : c < s.ch.length) :
    (deriveChannel c f s).channel c =
      { psc := derivePsc s.cfg.fClk (s.cfg.channel c) f
        top := BitVec.ofNat 16 (deriveTop s.cfg.fClk (s.cfg.channel c) f)
        isOn := false
        ctl := (s.channel c).ctl &&& ~~~(s.cfg.channel c).csMask } := by
  rw [deriveChannel, if_neg hf, setParameters_self _ _ _ _ (by simpa using h), disableChannel_self _ _ h]

theorem deriveChannel_ne (f : Nat) (h : c ≠ d) : (deriveChannel c f s).channel d = s.channel d := by
  unfold deriveChannel
  split
  · exact disableChannel_ne _ _ _ h
  · rw [setParameters_ne _ _ _ _ _ h, disableChannel_ne _ _ _ h]

/-! What the outside sees, in order (R73, R105). -/

@[simp] theorem disableChannel_outputs :
    (disableChannel c s).outputs = s.outputs ++ [.ctl c ((s.channel c).ctl &&& ~~~(s.cfg.channel c).csMask)] := rfl

@[simp] theorem enableChannel_outputs :
    (enableChannel c s).outputs =
      s.outputs ++ [.ctl c ((s.channel c).ctl ||| csCodeAt (s.cfg.channel c) (s.channel c).psc)] := rfl

@[simp] theorem setParameters_outputs (k t : Nat) :
    (setParameters c k t s).outputs = s.outputs ++ [.psc c k, .top c (BitVec.ofNat 16 t)] := by
  simp [setParameters]

theorem deriveChannel_outputs {f : Nat} (hf : f ≠ 0) :
    (deriveChannel c f s).outputs =
      s.outputs ++
        [.ctl c ((s.channel c).ctl &&& ~~~(s.cfg.channel c).csMask),
          .psc c (derivePsc s.cfg.fClk (s.cfg.channel c) f),
          .top c (BitVec.ofNat 16 (deriveTop s.cfg.fClk (s.cfg.channel c) f))] := by
  simp [deriveChannel, hf]

end Channels

/-! ## The tracker step (R132) -/

/-- The position and the latch after TRACK, and what it never writes (R26, R132). -/
theorem trackAxis_parts (i : Nat) (s : State) :
    (trackAxis i s).pend = s.pend.set i false ∧ (trackAxis i s).cfg = s.cfg ∧ (trackAxis i s).overrun = s.overrun ∧
      (trackAxis i s).ie = s.ie ∧ (trackAxis i s).savedIe = s.savedIe ∧ (trackAxis i s).fgPc = s.fgPc ∧
        (trackAxis i s).cmd = s.cmd ∧ (trackAxis i s).status = s.status ∧ (trackAxis i s).cmdPort = s.cmdPort ∧
          (trackAxis i s).inputs = s.inputs := by
  unfold trackAxis stopAtTarget autoStop
  split <;> exact ⟨rfl, rfl, rfl, rfl, rfl, rfl, rfl, rfl, rfl, rfl⟩

/-- TRACK away from the target: the position alone moves (R133). -/
theorem trackAxis_moves {i : Nat} {s : State} (h : i < s.ax.length)
    (hne : countedPos (s.cfg.axis i) (s.axis i) ≠ (s.axis i).target) :
    trackAxis i s = (s.setPending i false).setPos i (countedPos (s.cfg.axis i) (s.axis i)) := by
  unfold trackAxis stopAtTarget
  rw [if_neg]
  · rfl
  · have e : (countStep i (enterTracker i s)).axis i =
        { s.axis i with pos := countedPos (s.cfg.axis i) (s.axis i) } := axis_setAxis_self _ _ _ h
    rw [e]
    exact hne

/-- TRACK onto the target: the position and the three stop writes (R134). -/
theorem trackAxis_stops {i : Nat} {s : State} (h : i < s.ax.length)
    (he : countedPos (s.cfg.axis i) (s.axis i) = (s.axis i).target) :
    trackAxis i s =
      autoStop i ((s.setPending i false).setPos i (countedPos (s.cfg.axis i) (s.axis i))) := by
  unfold trackAxis stopAtTarget
  rw [if_pos]
  · rfl
  · have e : (countStep i (enterTracker i s)).axis i =
        { s.axis i with pos := countedPos (s.cfg.axis i) (s.axis i) } := axis_setAxis_self _ _ _ h
    rw [e]
    exact he

/-- What the outside sees of TRACK: nothing, or the channel disabled and then the line idled (R73, R134). -/
theorem trackAxis_outputs {i : Nat} {s : State} (h : i < s.ax.length) :
    (trackAxis i s).outputs =
      s.outputs ++
        if countedPos (s.cfg.axis i) (s.axis i) = (s.axis i).target then
          [.ctl (s.cfg.chan i) ((s.channel (s.cfg.chan i)).ctl &&& ~~~(s.cfg.channel (s.cfg.chan i)).csMask),
            .line i (s.cfg.axis i).dirIdle]
        else [] := by
  split
  · next he => rw [trackAxis_stops h he]; simp [autoStop]
  · next he => rw [trackAxis_moves h he]; simp

/-! ## The loops over the axes (R153, R158) -/

/-- A property that every iteration keeps holds after the loop. -/
theorem forAxes_induct {P : State → Prop} {f : Nat → State → State} {n : Nat} {s : State} (h0 : P s)
    (hstep : ∀ k t, k < n → P t → P (f k t)) : P (forAxes n f s) := by
  induction n with
  | zero => exact h0
  | succ n ih => exact hstep n _ (Nat.lt_succ_self n) (ih fun k t hk => hstep k t (Nat.lt_succ_of_lt hk))

/-- The batch writes the axis table alone (R153). -/
theorem batchAxis_frame (k : Nat) (s : State) : batchAxis k s = { s with ax := (batchAxis k s).ax } := by
  unfold batchAxis
  split <;> rfl

theorem batchAxis_ax_length (k : Nat) (s : State) : (batchAxis k s).ax.length = s.ax.length := by
  unfold batchAxis
  split <;> simp

theorem batchLoop_frame (n : Nat) (s : State) :
    forAxes n batchAxis s = { s with ax := (forAxes n batchAxis s).ax } ∧
      (forAxes n batchAxis s).ax.length = s.ax.length := by
  induction n with
  | zero => exact ⟨rfl, rfl⟩
  | succ n ih =>
    refine ⟨?_, by rw [forAxes, batchAxis_ax_length]; exact ih.2⟩
    rw [forAxes, batchAxis_frame, ih.1]

/-- What the loop of BATCH leaves in each axis record (R153). -/
theorem batchLoop_axis (n : Nat) (s : State) (hn : n ≤ s.ax.length) (i : Nat) :
    (forAxes n batchAxis s).axis i =
      if i < n ∧ selects (s.cmd.read 1) i then
        commandedRegs (s.cfg.axis i) (s.axis i) (zext16 (s.cmd.read16 (cmdFreqOffset i)))
          (s.cmd.read16 (cmdPosOffset i))
      else s.axis i := by
  induction n with
  | zero => simp [forAxes]
  | succ n ih =>
    obtain ⟨hf, hl⟩ := batchLoop_frame n s
    have hcmd : (forAxes n batchAxis s).cmd = s.cmd := by rw [hf]
    have hcfg : (forAxes n batchAxis s).cfg = s.cfg := by rw [hf]
    have ih := ih (by omega)
    rw [forAxes, batchAxis, hcmd, hcfg]
    by_cases hi : i = n
    · subst hi
      have hself : (forAxes i batchAxis s).axis i = s.axis i := by rw [ih, if_neg (by omega)]
      by_cases hs : selects (s.cmd.read 1) i = true
      · rw [if_pos hs, if_pos ⟨by omega, hs⟩, axis_setAxis_self _ _ _ (by omega), hself]
      · rw [if_neg hs, if_neg (by tauto), hself]
    · have hlt : (i < n + 1 ∧ selects (s.cmd.read 1) i = true) ↔ (i < n ∧ selects (s.cmd.read 1) i = true) := by
        rw [show i < n + 1 ↔ i < n by omega]
      split
      · rw [axis_setAxis_ne _ _ _ _ (Ne.symm hi), ih, if_congr hlt rfl rfl]
      · rw [ih, if_congr hlt rfl rfl]

/-- The snapshot loop writes the status buffer alone (R158). -/
theorem snapshotLoop_frame (n : Nat) (s : State) :
    forAxes n snapshotAxis s = { s with status := (forAxes n snapshotAxis s).status } := by
  induction n with
  | zero => rfl
  | succ n ih => rw [forAxes, snapshotAxis, ih]

/-- What the snapshot loop leaves in every byte of the status buffer (R84, R158). -/
theorem snapshotLoop_status (n : Nat) (s : State) (hs : s.status.wf = true) :
    (forAxes n snapshotAxis s).status.wf = true ∧
      (∀ a, (a = 0 ∨ 4 * n < a) → (forAxes n snapshotAxis s).status.read a = s.status.read a) ∧
        ∀ k, k < n →
          (forAxes n snapshotAxis s).status.read (statusFreqOffset k) = lowByte (s.axis k).freq ∧
            (forAxes n snapshotAxis s).status.read (statusFreqOffset k + 1) = highByte (s.axis k).freq ∧
              (forAxes n snapshotAxis s).status.read (statusPosOffset k) = lowByte (s.axis k).pos ∧
                (forAxes n snapshotAxis s).status.read (statusPosOffset k + 1) = highByte (s.axis k).pos := by
  induction n with
  | zero => exact ⟨hs, fun a _ => rfl, fun k hk => absurd hk (by omega)⟩
  | succ n ih =>
    obtain ⟨hwf, hout, hin⟩ := ih
    have hax : (forAxes n snapshotAxis s).axis n = s.axis n := by rw [snapshotLoop_frame]; rfl
    have hst : (forAxes (n + 1) snapshotAxis s).status =
        ((forAxes n snapshotAxis s).status.write16 (statusFreqOffset n) (s.axis n).freq).write16 (statusPosOffset n)
          (s.axis n).pos := by
      rw [forAxes, snapshotAxis, hax]
    rw [hst]
    have en : statusFreqOffset n = 1 + 4 * n ∧ statusPosOffset n = 3 + 4 * n := ⟨rfl, rfl⟩
    refine ⟨Memory.write16_wf (Memory.write16_wf hwf _ _) _ _, fun a ha => ?_, fun k hk => ?_⟩
    · rw [Memory.read_write16 (Memory.write16_wf hwf _ _), Memory.read_write16 hwf, hout a (by omega)]
      rw [if_neg (by omega), if_neg (by omega), if_neg (by omega), if_neg (by omega)]
    · have ek : statusFreqOffset k = 1 + 4 * k ∧ statusPosOffset k = 3 + 4 * k := ⟨rfl, rfl⟩
      simp only [Memory.read_write16 (Memory.write16_wf hwf _ _), Memory.read_write16 hwf]
      by_cases hkn : k = n
      · subst hkn
        refine ⟨?_, ?_, ?_, ?_⟩
        · rw [if_neg (by omega), if_neg (by omega), if_pos rfl]
        · rw [if_neg (by omega), if_neg (by omega), if_neg (by omega), if_pos rfl]
        · rw [if_pos rfl]
        · rw [if_neg (by omega), if_pos rfl]
      · obtain ⟨h1, h2, h3, h4⟩ := hin k (by omega)
        refine ⟨?_, ?_, ?_, ?_⟩
        · rw [if_neg (by omega), if_neg (by omega), if_neg (by omega), if_neg (by omega), h1]
        · rw [if_neg (by omega), if_neg (by omega), if_neg (by omega), if_neg (by omega), h2]
        · rw [if_neg (by omega), if_neg (by omega), if_neg (by omega), if_neg (by omega), h3]
        · rw [if_neg (by omega), if_neg (by omega), if_neg (by omega), if_neg (by omega), h4]

/-- A 2-byte field read back from its two bytes. -/
theorem read16_of_bytes {m : Memory} {off : Nat} {v : Word16} (h0 : m.read off = lowByte v)
    (h1 : m.read (off + 1) = highByte v) : m.read16 off = v := by
  rw [Memory.read16, h0, h1, word16_lowByte_highByte]

end Sys2Proof.Machine
end

