-- ==== Sys2Proof/Laws/Steps.lean ====
section
/-! SUPPORT. Each function that computes a next state: what it writes, and that it keeps the configuration and the
validity of the state. -/

namespace Sys2Proof.Machine

variable {s : State}

theorem State.valid_buffersFit (h : s.valid = true) : s.buffersFit = true :=
  State.buffersFit_iff.mpr (State.valid_buffers h)

/-! ## Channels -/

theorem disableChannel_valid (h : s.valid = true) (c : Nat) : (disableChannel c s).valid = true :=
  State.setOn_valid (State.output_valid h _ (by simp)) _ _

theorem enableChannel_valid (h : s.valid = true) (c : Nat) : (enableChannel c s).valid = true :=
  State.setOn_valid (State.output_valid h _ (by simp)) _ _

theorem deriveChannel_valid (h : s.valid = true) (c f : Nat) : (deriveChannel c f s).valid = true := by
  unfold deriveChannel
  split
  · exact disableChannel_valid h c
  · refine State.output_valid (State.output_valid (disableChannel_valid h c) _ ?_) _ (by simp)
    rintro _ _ ⟨⟩ hc
    exact (derivePsc_spec _ _ _ (Cfg.ratios_spec (State.valid_accepted h) hc).1).1

/-! ## Events and trackers -/

theorem overflowEvent_cfg (c : Nat) (g : Bool) : (overflowEvent c g s).cfg = s.cfg := by
  unfold overflowEvent latchEvent
  split
  · split <;> rfl
  · rfl

theorem overflowEvent_valid (h : s.valid = true) (c : Nat) (g : Bool) : (overflowEvent c g s).valid = true := by
  unfold overflowEvent latchEvent
  split
  · split
    · exact State.setOverrun_valid h _
    · exact State.setPending_valid h _ _
  · exact h

theorem trackAxis_valid (h : s.valid = true) (i : Nat) : (trackAxis i s).valid = true := by
  have h1 : (countStep i (enterTracker i s)).valid = true :=
    State.setAxis_valid (State.setPending_valid h _ _) _ _
  unfold trackAxis stopAtTarget
  split
  · exact State.output_valid (disableChannel_valid (State.setAxis_valid h1 _ _) _) _ (by simp)
  · exact h1

/-! ## The dispatcher -/

@[simp] theorem latchRecord_cfg (bytes : List Byte) (ph : Phase) : (latchRecord bytes ph s).cfg = s.cfg := rfl
@[simp] theorem latchRecord_ax (bytes : List Byte) (ph : Phase) : (latchRecord bytes ph s).ax = s.ax := rfl
@[simp] theorem latchRecord_ch (bytes : List Byte) (ph : Phase) : (latchRecord bytes ph s).ch = s.ch := rfl
@[simp] theorem latchRecord_dirline (bytes : List Byte) (ph : Phase) : (latchRecord bytes ph s).dirline = s.dirline := rfl
@[simp] theorem latchRecord_pend (bytes : List Byte) (ph : Phase) : (latchRecord bytes ph s).pend = s.pend := rfl
@[simp] theorem latchRecord_overrun (bytes : List Byte) (ph : Phase) : (latchRecord bytes ph s).overrun = s.overrun := rfl
@[simp] theorem latchRecord_ie (bytes : List Byte) (ph : Phase) : (latchRecord bytes ph s).ie = s.ie := rfl
@[simp] theorem latchRecord_savedIe (bytes : List Byte) (ph : Phase) : (latchRecord bytes ph s).savedIe = s.savedIe := rfl
@[simp] theorem latchRecord_status (bytes : List Byte) (ph : Phase) : (latchRecord bytes ph s).status = s.status := rfl
@[simp] theorem latchRecord_statusValid (bytes : List Byte) (ph : Phase) : (latchRecord bytes ph s).statusValid = s.statusValid := rfl
@[simp] theorem latchRecord_reqReset (bytes : List Byte) (ph : Phase) : (latchRecord bytes ph s).reqReset = s.reqReset := rfl
@[simp] theorem latchRecord_reqBoot (bytes : List Byte) (ph : Phase) : (latchRecord bytes ph s).reqBoot = s.reqBoot := rfl
@[simp] theorem latchRecord_inputs (bytes : List Byte) (ph : Phase) : (latchRecord bytes ph s).inputs = s.inputs := rfl
@[simp] theorem latchRecord_outputs (bytes : List Byte) (ph : Phase) : (latchRecord bytes ph s).outputs = s.outputs := rfl
@[simp] theorem latchRecord_axis (bytes : List Byte) (ph : Phase) (i : Nat) : (latchRecord bytes ph s).axis i = s.axis i := rfl
@[simp] theorem latchRecord_channel (bytes : List Byte) (ph : Phase) (c : Nat) : (latchRecord bytes ph s).channel c = s.channel c := rfl
@[simp] theorem latchRecord_line (bytes : List Byte) (ph : Phase) (i : Nat) : (latchRecord bytes ph s).line i = s.line i := rfl
@[simp] theorem latchRecord_pending (bytes : List Byte) (ph : Phase) (i : Nat) : (latchRecord bytes ph s).pending i = s.pending i := rfl
@[simp] theorem latchRecord_overran (bytes : List Byte) (ph : Phase) (i : Nat) : (latchRecord bytes ph s).overran i = s.overran i := rfl
@[simp] theorem requestReset_cfg : (requestReset s).cfg = s.cfg := rfl
@[simp] theorem requestReset_ax : (requestReset s).ax = s.ax := rfl
@[simp] theorem requestReset_ch : (requestReset s).ch = s.ch := rfl
@[simp] theorem requestReset_dirline : (requestReset s).dirline = s.dirline := rfl
@[simp] theorem requestReset_pend : (requestReset s).pend = s.pend := rfl
@[simp] theorem requestReset_overrun : (requestReset s).overrun = s.overrun := rfl
@[simp] theorem requestReset_ie : (requestReset s).ie = s.ie := rfl
@[simp] theorem requestReset_savedIe : (requestReset s).savedIe = s.savedIe := rfl
@[simp] theorem requestReset_cmd : (requestReset s).cmd = s.cmd := rfl
@[simp] theorem requestReset_status : (requestReset s).status = s.status := rfl
@[simp] theorem requestReset_statusValid : (requestReset s).statusValid = s.statusValid := rfl
@[simp] theorem requestReset_reqBoot : (requestReset s).reqBoot = s.reqBoot := rfl
@[simp] theorem requestReset_inputs : (requestReset s).inputs = s.inputs := rfl
@[simp] theorem requestReset_outputs : (requestReset s).outputs = s.outputs := rfl
@[simp] theorem requestReset_axis (i : Nat) : (requestReset s).axis i = s.axis i := rfl
@[simp] theorem requestReset_channel (c : Nat) : (requestReset s).channel c = s.channel c := rfl
@[simp] theorem requestReset_line (i : Nat) : (requestReset s).line i = s.line i := rfl
@[simp] theorem requestReset_pending (i : Nat) : (requestReset s).pending i = s.pending i := rfl
@[simp] theorem requestReset_overran (i : Nat) : (requestReset s).overran i = s.overran i := rfl
@[simp] theorem requestBoot_cfg : (requestBoot s).cfg = s.cfg := rfl
@[simp] theorem requestBoot_ax : (requestBoot s).ax = s.ax := rfl
@[simp] theorem requestBoot_ch : (requestBoot s).ch = s.ch := rfl
@[simp] theorem requestBoot_dirline : (requestBoot s).dirline = s.dirline := rfl
@[simp] theorem requestBoot_pend : (requestBoot s).pend = s.pend := rfl
@[simp] theorem requestBoot_overrun : (requestBoot s).overrun = s.overrun := rfl
@[simp] theorem requestBoot_ie : (requestBoot s).ie = s.ie := rfl
@[simp] theorem requestBoot_savedIe : (requestBoot s).savedIe = s.savedIe := rfl
@[simp] theorem requestBoot_cmd : (requestBoot s).cmd = s.cmd := rfl
@[simp] theorem requestBoot_status : (requestBoot s).status = s.status := rfl
@[simp] theorem requestBoot_statusValid : (requestBoot s).statusValid = s.statusValid := rfl
@[simp] theorem requestBoot_reqReset : (requestBoot s).reqReset = s.reqReset := rfl
@[simp] theorem requestBoot_inputs : (requestBoot s).inputs = s.inputs := rfl
@[simp] theorem requestBoot_outputs : (requestBoot s).outputs = s.outputs := rfl
@[simp] theorem requestBoot_axis (i : Nat) : (requestBoot s).axis i = s.axis i := rfl
@[simp] theorem requestBoot_channel (c : Nat) : (requestBoot s).channel c = s.channel c := rfl
@[simp] theorem requestBoot_line (i : Nat) : (requestBoot s).line i = s.line i := rfl
@[simp] theorem requestBoot_pending (i : Nat) : (requestBoot s).pending i = s.pending i := rfl
@[simp] theorem requestBoot_overran (i : Nat) : (requestBoot s).overran i = s.overran i := rfl
@[simp] theorem clearMask_cfg : (clearMask s).cfg = s.cfg := rfl
@[simp] theorem clearMask_ax : (clearMask s).ax = s.ax := rfl
@[simp] theorem clearMask_ch : (clearMask s).ch = s.ch := rfl
@[simp] theorem clearMask_dirline : (clearMask s).dirline = s.dirline := rfl
@[simp] theorem clearMask_pend : (clearMask s).pend = s.pend := rfl
@[simp] theorem clearMask_overrun : (clearMask s).overrun = s.overrun := rfl
@[simp] theorem clearMask_ie : (clearMask s).ie = s.ie := rfl
@[simp] theorem clearMask_savedIe : (clearMask s).savedIe = s.savedIe := rfl
@[simp] theorem clearMask_status : (clearMask s).status = s.status := rfl
@[simp] theorem clearMask_statusValid : (clearMask s).statusValid = s.statusValid := rfl
@[simp] theorem clearMask_cmdTake : (clearMask s).cmdTake = s.cmdTake := rfl
@[simp] theorem clearMask_reqReset : (clearMask s).reqReset = s.reqReset := rfl
@[simp] theorem clearMask_reqBoot : (clearMask s).reqBoot = s.reqBoot := rfl
@[simp] theorem clearMask_cmdPort : (clearMask s).cmdPort = s.cmdPort := rfl
@[simp] theorem clearMask_inputs : (clearMask s).inputs = s.inputs := rfl
@[simp] theorem clearMask_outputs : (clearMask s).outputs = s.outputs := rfl
@[simp] theorem clearMask_axis (i : Nat) : (clearMask s).axis i = s.axis i := rfl
@[simp] theorem clearMask_channel (c : Nat) : (clearMask s).channel c = s.channel c := rfl
@[simp] theorem clearMask_line (i : Nat) : (clearMask s).line i = s.line i := rfl
@[simp] theorem clearMask_pending (i : Nat) : (clearMask s).pending i = s.pending i := rfl
@[simp] theorem clearMask_overran (i : Nat) : (clearMask s).overran i = s.overran i := rfl

/-- ACCEPT writes no axis, channel, line, latch or enable register (R146). -/
theorem acceptRecord_frame (bytes : List Byte) :
    acceptRecord bytes s =
      { s with
        fgPc := (acceptRecord bytes s).fgPc
        cmd := (acceptRecord bytes s).cmd
        cmdTake := true
        reqReset := (acceptRecord bytes s).reqReset
        reqBoot := (acceptRecord bytes s).reqBoot
        cmdPort := none } := by
  unfold acceptRecord
  split <;> rfl

theorem latchRecord_valid (h : s.valid = true) {bytes : List Byte} (hb : bytes.length = s.cfg.cmdLen) {ph : Phase}
    (hph : ph = .snap ∨ ph = .batch) : (latchRecord bytes ph s).valid = true := by
  obtain ⟨b1, b2, b3, b4⟩ := State.valid_buffers h
  refine State.valid_of_parts h rfl rfl rfl (fun c hc => State.valid_psc h hc) rfl rfl rfl ?_ ?_
  · obtain rfl | rfl := hph <;> rfl
  · rw [State.buffersFit_iff]
    exact ⟨Memory.writeBytes_wf b1 _ _,
      Memory.writeBytes_within b2 _ _ (by show 0 + bytes.length ≤ s.cfg.cmdLen; omega), b3, b4⟩

theorem requestReset_valid (h : s.valid = true) : (requestReset s).valid = true :=
  State.valid_of_parts h rfl rfl rfl (fun _ hc => State.valid_psc h hc) rfl rfl rfl rfl
    (show s.buffersFit = true from State.valid_buffersFit h)

theorem requestBoot_valid (h : s.valid = true) : (requestBoot s).valid = true :=
  State.valid_of_parts h rfl rfl rfl (fun _ hc => State.valid_psc h hc) rfl rfl rfl rfl
    (show s.buffersFit = true from State.valid_buffersFit h)

theorem acceptRecord_cfg (bytes : List Byte) : (acceptRecord bytes s).cfg = s.cfg := by
  unfold acceptRecord
  split <;> rfl

theorem acceptRecord_valid (h : s.valid = true) {bytes : List Byte} (hb : bytes.length = s.cfg.cmdLen) :
    (acceptRecord bytes s).valid = true := by
  unfold acceptRecord
  split
  · exact requestReset_valid h
  · exact requestBoot_valid h
  · exact latchRecord_valid h hb (.inr rfl)
  · exact latchRecord_valid h hb (.inl rfl)
  · exact latchRecord_valid h hb (.inl rfl)

/-- BATCH writes the axis table, `SAVED_IE` and the phase, and leaves `IE` as it was (R153). -/
theorem batchAll_frame : batchAll s = { s with ax := (batchAll s).ax, savedIe := s.ie, fgPc := .upd 0 } := by
  unfold batchAll
  rw [(batchLoop_frame _ _).1]
  rfl

@[simp] theorem batchAll_ax : (batchAll s).ax = (forAxes s.cfg.nAx batchAxis (guardEnter s)).ax := rfl

/-- An axis the command does not select keeps its registers (R152). -/
theorem batchAll_axis_unselected (h : s.valid = true) {i : Nat} (hs : i < s.cfg.nAx → selects (s.cmd.read 1) i = false) :
    (batchAll s).axis i = s.axis i := by
  have hl := (State.valid_tables h).1
  have e : (batchAll s).axis i = _ := batchLoop_axis s.cfg.nAx (guardEnter s) (by simp only [guardEnter_ax]; omega) i
  rw [e, if_neg]
  · rfl
  · rintro ⟨hi, hb⟩
    exact absurd hb (by simp only [guardEnter_cmd]; rw [hs hi]; decide)

/-- A selected axis takes the request of its slot (R153). -/
theorem batchAll_axis_selected (h : s.valid = true) {i : Nat} (hi : i < s.cfg.nAx)
    (hs : selects (s.cmd.read 1) i = true) :
    (batchAll s).axis i =
      commandedRegs (s.cfg.axis i) (s.axis i) (zext16 (s.cmd.read16 (2 + 4 * i))) (s.cmd.read16 (4 + 4 * i)) := by
  have hl := (State.valid_tables h).1
  have e : (batchAll s).axis i = _ := batchLoop_axis s.cfg.nAx (guardEnter s) (by simp only [guardEnter_ax]; omega) i
  rw [e, if_pos ⟨hi, hs⟩]
  rfl

theorem batchAll_valid (h : s.valid = true) : (batchAll s).valid = true := by
  obtain ⟨e, el⟩ := batchLoop_frame s.cfg.nAx (guardEnter s)
  rw [batchAll_frame]
  exact State.valid_of_parts h rfl el rfl (fun _ hc => State.valid_psc h hc) rfl rfl rfl (by simp [State.phaseFits])
    (show s.buffersFit = true from State.valid_buffersFit h)

theorem clearMask_valid (h : s.valid = true) : (clearMask s).valid = true := by
  obtain ⟨b1, b2, b3, b4⟩ := State.valid_buffers h
  refine State.valid_of_parts h rfl rfl rfl (fun _ hc => State.valid_psc h hc) rfl rfl rfl rfl
    (State.buffersFit_iff.mpr ?_)
  exact ⟨Memory.write_wf b1 _ _, Memory.write_within b2 (by show 1 < s.cfg.cmdLen; unfold Cfg.cmdLen; omega) _, b3, b4⟩

/-- SNAPSHOT writes the status record, its strobe, `SAVED_IE` and the phase, and leaves `IE` as it was (R158). -/
theorem snapshotAll_frame :
    snapshotAll s = { s with status := (snapshotAll s).status, statusValid := true, savedIe := s.ie, fgPc := .idle } := by
  unfold snapshotAll
  rw [snapshotLoop_frame]
  rfl

theorem snapshotLoop_within {n : Nat} (h : s.status.within s.cfg.statusLen = true) (hn : n ≤ s.cfg.nAx) :
    (forAxes n snapshotAxis s).status.within s.cfg.statusLen = true := by
  induction n with
  | zero => exact h
  | succ n ih =>
    rw [forAxes, snapshotAxis]
    refine Memory.write16_within (Memory.write16_within (ih (by omega)) ?_ _) ?_ _
    · unfold statusFreqOffset Cfg.statusLen
      omega
    · unfold statusPosOffset Cfg.statusLen
      omega

theorem snapshotAll_valid (h : s.valid = true) : (snapshotAll s).valid = true := by
  obtain ⟨b1, b2, b3, b4⟩ := State.valid_buffers h
  have w : (snapshotAll s).status.wf = true :=
    (snapshotLoop_status s.cfg.nAx (guardEnter (echoOpcode s)) (Memory.write_wf b3 _ _)).1
  have win : (snapshotAll s).status.within s.cfg.statusLen = true :=
    snapshotLoop_within (s := guardEnter (echoOpcode s)) (n := s.cfg.nAx)
      (Memory.write_within b4 (by show 0 < s.cfg.statusLen; unfold Cfg.statusLen; omega) _) le_rfl
  rw [snapshotAll_frame]
  exact State.valid_of_parts h rfl rfl rfl (fun _ hc => State.valid_psc h hc) rfl rfl rfl rfl
    (State.buffersFit_iff.mpr ⟨b1, b2, w, win⟩)

/-! ## The axis updater -/

@[simp] theorem startOrStop_cfg (i fa : Nat) : (startOrStop i fa s).cfg = s.cfg := by
  unfold startOrStop
  split <;> rfl

/-- Starting or stopping a channel writes the channel table and the direction line, and the outside sees it (R171). -/
theorem startOrStop_frame (i fa : Nat) :
    startOrStop i fa s =
      { s with
        ch := (startOrStop i fa s).ch
        dirline := (startOrStop i fa s).dirline
        outputs := (startOrStop i fa s).outputs } := by
  unfold startOrStop
  split <;> rfl

theorem startOrStop_valid (h : s.valid = true) (i fa : Nat) : (startOrStop i fa s).valid = true := by
  unfold startOrStop
  split
  · exact disableChannel_valid h _
  · exact enableChannel_valid (State.output_valid h _ (by simp)) _

@[simp] theorem updateAxis_cfg (i : Nat) : (updateAxis i s).cfg = s.cfg := by
  simp [updateAxis, resyncAxis]

theorem updateAxis_valid (h : s.valid = true) (i : Nat) : (updateAxis i s).valid = true :=
  guardExit_valid (State.setAxis_valid (startOrStop_valid (State.setAxis_valid
    (deriveChannel_valid (guardEnter_valid h) _ _) _ _) _ _) _ _)

/-- UPDATE_AXIS writes the axis, channel and line tables and `SAVED_IE`, and leaves `IE` as it was (R172); the outside
sees its writes. -/
theorem updateAxis_frame (i : Nat) :
    updateAxis i s =
      { s with
        ax := (updateAxis i s).ax
        ch := (updateAxis i s).ch
        dirline := (updateAxis i s).dirline
        savedIe := s.ie
        outputs := (updateAxis i s).outputs } := by
  unfold updateAxis resyncAxis
  simp only
  rw [startOrStop_frame, deriveChannel_frame]
  rfl

/-- What the outside sees of a start: the line, then the field of the channel (R175). -/
theorem startOrStop_outputs {fa : Nat} (h : fa ≠ 0) (i : Nat) :
    (startOrStop i fa s).outputs =
      s.outputs ++
        [.line i (s.axis i).dir,
          .ctl (s.cfg.chan i) ((s.channel (s.cfg.chan i)).ctl |||
            csCodeAt (s.cfg.channel (s.cfg.chan i)) (s.channel (s.cfg.chan i)).psc)] := by
  simp [startOrStop, h]

/-- What UPDATE_AXIS leaves alone in the tables: every other axis and line, every channel but the bound one (R171). -/
theorem updateAxis_other {i : Nat} (j d : Nat) (hj : i ≠ j) (hd : s.cfg.chan i ≠ d) :
    (updateAxis i s).axis j = s.axis j ∧ (updateAxis i s).line j = s.line j ∧
      (updateAxis i s).channel d = s.channel d := by
  unfold updateAxis resyncAxis startOrStop
  simp only [guardExit_axis, guardExit_line, guardExit_channel, setDirty_line, setDirty_channel, setFreq_cfg,
    deriveChannel_cfg, guardEnter_cfg]
  split
  · rw [State.setDirty, axis_setAxis_ne _ _ _ _ hj, disableChannel_axis, disableChannel_line, disableChannel_ne _ _ _ hd,
      State.setFreq, axis_setAxis_ne _ _ _ _ hj, deriveChannel_axis, setAxis_line, deriveChannel_line, setAxis_channel,
      deriveChannel_ne _ _ _ _ hd]
    exact ⟨rfl, rfl, rfl⟩
  · rw [State.setDirty, axis_setAxis_ne _ _ _ _ hj, enableChannel_axis, enableChannel_line, enableChannel_ne _ _ _ hd,
      output_axis, output_line, output_channel, State.apply,
      line_setLine_ne _ _ _ _ hj, setLine_channel,
      State.setFreq, axis_setAxis_ne _ _ _ _ hj, deriveChannel_axis, setAxis_line, deriveChannel_line, setAxis_channel,
      deriveChannel_ne _ _ _ _ hd]
    exact ⟨rfl, rfl, rfl⟩

section OwnAxis

variable {i : Nat} (h : s.valid = true) (hi : i < s.cfg.nAx)
include h hi

/-- The axis record after UPDATE_AXIS: the derived frequency, the dirty flag clear (R171, R175). -/
theorem updateAxis_axis_self :
    (updateAxis i s).axis i =
      { s.axis i with
        freq := BitVec.ofNat 16
          (deriveResult s.cfg (s.cfg.chan i) (clampFreq (s.cfg.axis i) (zext16 (s.axis i).freq)))
        dirty := false } := by
  have hl := (State.valid_tables h).1
  unfold updateAxis resyncAxis startOrStop
  simp only [guardExit_axis]
  split
  · rw [State.setDirty, axis_setAxis_self _ _ _ (by simp [State.setFreq]; omega), disableChannel_axis, State.setFreq,
      axis_setAxis_self _ _ _ (by simp; omega), deriveChannel_axis]
    rfl
  · rw [State.setDirty, axis_setAxis_self _ _ _ (by simp [State.setFreq]; omega), enableChannel_axis, output_axis,
      State.setFreq, axis_setAxis_self _ _ _ (by simp; omega), deriveChannel_axis]
    rfl

/-- A derivation with result 0 disables the channel and leaves the direction line (R171). -/
theorem updateAxis_stop
    (h0 : deriveResult s.cfg (s.cfg.chan i) (clampFreq (s.cfg.axis i) (zext16 (s.axis i).freq)) = 0) :
    (updateAxis i s).line i = s.line i ∧
      (updateAxis i s).channel (s.cfg.chan i) =
        (disableChannel (s.cfg.chan i)
          (deriveChannel (s.cfg.chan i) (clampFreq (s.cfg.axis i) (zext16 (s.axis i).freq)) (guardEnter s))).channel
          (s.cfg.chan i) := by
  have hl := (State.valid_tables h).2.1
  have hc := Cfg.chan_lt (State.valid_accepted h) hi
  have hlen : s.cfg.chan i <
      (deriveChannel (s.cfg.chan i) (clampFreq (s.cfg.axis i) (zext16 (s.axis i).freq)) (guardEnter s)).ch.length := by
    simp
    omega
  unfold updateAxis resyncAxis startOrStop
  simp only [guardExit_line, guardExit_channel, setDirty_line, setDirty_channel, guardEnter_cfg, h0, if_true]
  refine ⟨by simp, ?_⟩
  simp only [setFreq_cfg, deriveChannel_cfg, guardEnter_cfg]
  rw [disableChannel_self _ _ (by simpa using hlen), disableChannel_self _ _ hlen]
  simp

/-- Any other result drives the line with the direction flag and starts the channel with the derived pair (R171). -/
theorem updateAxis_start
    (h0 : deriveResult s.cfg (s.cfg.chan i) (clampFreq (s.cfg.axis i) (zext16 (s.axis i).freq)) ≠ 0) :
    (updateAxis i s).line i = (s.axis i).dir ∧
      (updateAxis i s).channel (s.cfg.chan i) =
        (enableChannel (s.cfg.chan i)
          (deriveChannel (s.cfg.chan i) (clampFreq (s.cfg.axis i) (zext16 (s.axis i).freq)) (guardEnter s))).channel
          (s.cfg.chan i) := by
  obtain ⟨ha, hl, hd, -, -⟩ := State.valid_tables h
  have hc := Cfg.chan_lt (State.valid_accepted h) hi
  have hlen : s.cfg.chan i <
      (deriveChannel (s.cfg.chan i) (clampFreq (s.cfg.axis i) (zext16 (s.axis i).freq)) (guardEnter s)).ch.length := by
    simp
    omega
  unfold updateAxis resyncAxis startOrStop
  simp only [guardExit_line, guardExit_channel, setDirty_line, setDirty_channel, guardEnter_cfg, h0, if_false]
  constructor
  · rw [enableChannel_line, output_line, State.apply, line_setLine_self _ _ _ (by simp; omega), State.setFreq,
      axis_setAxis_self _ _ _ (by simp; omega)]
    simp
  · simp only [setFreq_cfg, deriveChannel_cfg, guardEnter_cfg]
    rw [enableChannel_self _ _ (by simpa using hlen), enableChannel_self _ _ hlen]
    simp

/-- What the outside sees of a stop: the clock-select field cleared by DERIVE and again by the updater (R73, R173). -/
theorem updateAxis_stop_outputs (h0 : clampFreq (s.cfg.axis i) (zext16 (s.axis i).freq) = 0) :
    (updateAxis i s).outputs =
      s.outputs ++
        List.replicate 2
          (.ctl (s.cfg.chan i) ((s.channel (s.cfg.chan i)).ctl &&& ~~~(s.cfg.channel (s.cfg.chan i)).csMask)) := by
  have hl := (State.valid_tables h).2.1
  have hc := Cfg.chan_lt (State.valid_accepted h) hi
  have e := disableChannel_self (guardEnter s) (s.cfg.chan i) (by simp; omega)
  rw [guardEnter_cfg, guardEnter_channel] at e
  simp [updateAxis, resyncAxis, startOrStop, h0, deriveResult, List.replicate, e, BitVec.and_assoc]

/-- What the outside sees of a start, in the order of R175. -/
theorem updateAxis_start_outputs {f : Nat} (hf : f = clampFreq (s.cfg.axis i) (zext16 (s.axis i).freq)) (h0 : f ≠ 0)
    (h1 : deriveResult s.cfg (s.cfg.chan i) f ≠ 0) :
    (updateAxis i s).outputs =
      s.outputs ++
        [.ctl (s.cfg.chan i) ((s.channel (s.cfg.chan i)).ctl &&& ~~~(s.cfg.channel (s.cfg.chan i)).csMask),
          .psc (s.cfg.chan i) (derivePsc s.cfg.fClk (s.cfg.channel (s.cfg.chan i)) f),
          .top (s.cfg.chan i) (BitVec.ofNat 16 (deriveTop s.cfg.fClk (s.cfg.channel (s.cfg.chan i)) f)),
          .line i (s.axis i).dir,
          .ctl (s.cfg.chan i)
            ((s.channel (s.cfg.chan i)).ctl &&& ~~~(s.cfg.channel (s.cfg.chan i)).csMask |||
              csCodeAt (s.cfg.channel (s.cfg.chan i)) (derivePsc s.cfg.fClk (s.cfg.channel (s.cfg.chan i)) f))] := by
  obtain ⟨ha, hl, -⟩ := State.valid_tables h
  have hc := Cfg.chan_lt (State.valid_accepted h) hi
  have e := deriveChannel_self (guardEnter s) (s.cfg.chan i) h0 (by simp; omega)
  rw [guardEnter_cfg, guardEnter_channel] at e
  have ea : ((deriveChannel (s.cfg.chan i) f (guardEnter s)).setFreq i
      (BitVec.ofNat 16 (deriveResult s.cfg (s.cfg.chan i) f))).axis i = _ := axis_setAxis_self _ _ _ (by simp; omega)
  simp only [updateAxis, resyncAxis, ← hf, guardExit_outputs, setDirty_outputs, guardEnter_cfg, startOrStop_outputs h1,
    setFreq_outputs, deriveChannel_outputs _ _ h0, setFreq_cfg, setFreq_channel, deriveChannel_cfg, e, ea,
    deriveChannel_axis, guardEnter_axis, guardEnter_channel, guardEnter_outputs, List.append_assoc, List.cons_append,
    List.nil_append]

end OwnAxis

/-- A phase that exists keeps a state valid (R40). -/
theorem State.setPhase_valid (h : s.valid = true) {ph : Phase} (hph : (s.setPhase ph).phaseFits = true) :
    (s.setPhase ph).valid = true :=
  State.valid_of_parts h rfl rfl rfl (fun _ hc => State.valid_psc h hc) rfl rfl rfl hph
    (show s.buffersFit = true from State.valid_buffersFit h)

end Sys2Proof.Machine
end

