-- ==== Sys2Proof/Laws/Exec.lean ====
section
/-! SUPPORT. One inversion lemma per operation: what a next state of `exec` comes from. -/

namespace Sys2Proof.Machine

variable {s t : State}

theorem exec_getState_next {p : Payload} : exec (.getState p) s = .next t ↔ s.valid = true ∧
    ((s.isIdle = true ∧ (encodeRecord s.cfg.opGet p).length = s.cfg.cmdLen ∧
        latchRecord (encodeRecord s.cfg.opGet p) .snap s = t) ∨ (s.isIdle = false ∧ t = s)) := by
  simp only [exec, execGetState, whenValid_next, whenEnabled_next, whenRecord_next, Host.Outcome.next.injEq]

theorem exec_setState_next {p : Payload} : exec (.setState p) s = .next t ↔ s.valid = true ∧
    ((s.isIdle = true ∧ (encodeRecord s.cfg.opSet p).length = s.cfg.cmdLen ∧
        latchRecord (encodeRecord s.cfg.opSet p) .batch s = t) ∨ (s.isIdle = false ∧ t = s)) := by
  simp only [exec, execSetState, whenValid_next, whenEnabled_next, whenRecord_next, Host.Outcome.next.injEq]

theorem exec_resetReq_next {p : Payload} : exec (.resetReq p) s = .next t ↔ s.valid = true ∧
    ((s.isIdle = true ∧ (encodeRecord s.cfg.opReset p).length = s.cfg.cmdLen ∧ requestReset s = t) ∨
      (s.isIdle = false ∧ t = s)) := by
  simp only [exec, execResetReq, whenValid_next, whenEnabled_next, whenRecord_next, Host.Outcome.next.injEq]

theorem exec_bootReq_next {p : Payload} : exec (.bootReq p) s = .next t ↔ s.valid = true ∧
    ((s.isIdle = true ∧ (encodeRecord s.cfg.opBoot p).length = s.cfg.cmdLen ∧ requestBoot s = t) ∨
      (s.isIdle = false ∧ t = s)) := by
  simp only [exec, execBootReq, whenValid_next, whenEnabled_next, whenRecord_next, Host.Outcome.next.injEq]

theorem exec_unrecognized_next {op : Byte} {p : Payload} : exec (.unrecognized op p) s = .next t ↔ s.valid = true ∧
    ((s.isIdle = true ∧ (encodeRecord op p).length = s.cfg.cmdLen ∧ latchRecord (encodeRecord op p) .snap s = t) ∨
      (s.isIdle = false ∧ t = s)) := by
  simp only [exec, execUnrecognized, whenValid_next, whenEnabled_next, whenRecord_next, Host.Outcome.next.injEq]

theorem exec_accept_next : exec .accept s = .next t ↔ s.valid = true ∧
    ((∃ bytes, s.isIdle = true ∧ s.cmdPort = some bytes ∧ bytes.length = s.cfg.cmdLen ∧ acceptRecord bytes s = t) ∨
      ((s.isIdle = false ∨ s.cmdPort = none) ∧ t = s)) := by
  simp only [exec, execAccept, whenValid_next, whenEnabled_next]
  cases s.cmdPort with
  | none =>
    simp only [Host.Outcome.next.injEq, reduceCtorEq, false_and, and_false, exists_false, false_or, or_true, true_and,
      eq_comm (a := s)]
    cases s.isIdle <;> simp
  | some bytes => simp [whenRecord_next]

theorem exec_batch_next : exec .batch s = .next t ↔ s.valid = true ∧
    ((s.fgPc = .batch ∧ batchAll s = t) ∨ (s.fgPc ≠ .batch ∧ t = s)) := by
  simp only [exec, execBatch, whenValid_next, whenEnabled_next, Host.Outcome.next.injEq, decide_eq_true_eq,
    decide_eq_false_iff_not, ne_eq]

theorem exec_updateAxis_next {i : Nat} : exec (.updateAxis i) s = .next t ↔ s.valid = true ∧ i < s.cfg.nAx ∧
    ((updateEnabled i s = true ∧ (updateAxis i s).setPhase (.upd (i + 1)) = t) ∨
      (updateEnabled i s = false ∧ t = s)) := by
  simp only [exec, execUpdateAxis, whenValid_next, whenIndex_next, whenEnabled_next, Host.Outcome.next.injEq]

theorem exec_clrMask_next : exec .clrMask s = .next t ↔ s.valid = true ∧
    ((s.fgPc = .clr ∧ clearMask s = t) ∨ (s.fgPc ≠ .clr ∧ t = s)) := by
  simp only [exec, execClrMask, whenValid_next, whenEnabled_next, Host.Outcome.next.injEq, decide_eq_true_eq,
    decide_eq_false_iff_not, ne_eq]

theorem exec_snapshot_next : exec .snapshot s = .next t ↔ s.valid = true ∧
    ((s.fgPc = .snap ∧ snapshotAll s = t) ∨ (s.fgPc ≠ .snap ∧ t = s)) := by
  simp only [exec, execSnapshot, whenValid_next, whenEnabled_next, Host.Outcome.next.injEq, decide_eq_true_eq,
    decide_eq_false_iff_not, ne_eq]

theorem exec_derive_next {c : Nat} {f : Word16} : exec (.derive c f) s = .next t ↔
    s.valid = true ∧ c < s.cfg.nAx ∧ deriveChannel c f.toNat s = t := by
  simp only [exec, execDerive, whenValid_next, whenIndex_next, Host.Outcome.next.injEq, zext16]

theorem exec_enable_next {c : Nat} : exec (.enable c) s = .next t ↔
    s.valid = true ∧ c < s.cfg.nAx ∧ enableChannel c s = t := by
  simp only [exec, execEnable, whenValid_next, whenIndex_next, Host.Outcome.next.injEq]

theorem exec_disable_next {c : Nat} : exec (.disable c) s = .next t ↔
    s.valid = true ∧ c < s.cfg.nAx ∧ disableChannel c s = t := by
  simp only [exec, execDisable, whenValid_next, whenIndex_next, Host.Outcome.next.injEq]

theorem exec_guardEnter_next : exec .guardEnter s = .next t ↔ s.valid = true ∧ guardEnter s = t := by
  simp only [exec, execGuardEnter, whenValid_next, Host.Outcome.next.injEq]

theorem exec_guardExit_next : exec .guardExit s = .next t ↔ s.valid = true ∧ guardExit s = t := by
  simp only [exec, execGuardExit, whenValid_next, Host.Outcome.next.injEq]

theorem exec_ovf_next {c : Nat} {g : Bool} : exec (.ovf c g) s = .next t ↔ s.valid = true ∧ c < s.cfg.nAx ∧
    ((overflowEnabled c g s = true ∧ overflowEvent c g s = t) ∨ (overflowEnabled c g s = false ∧ t = s)) := by
  simp only [exec, execOvf, whenValid_next, whenIndex_next, whenEnabled_next, Host.Outcome.next.injEq]

theorem exec_track_next {i : Nat} : exec (.track i) s = .next t ↔ s.valid = true ∧ i < s.cfg.nAx ∧
    ((trackEnabled i s = true ∧ trackAxis i s = t) ∨ (trackEnabled i s = false ∧ t = s)) := by
  simp only [exec, execTrack, whenValid_next, whenIndex_next, whenEnabled_next, Host.Outcome.next.injEq]

end Sys2Proof.Machine
end

