-- ==== Sys2Proof/Laws/PerInstr.lean ====
section
/-! SUPPORT. A property of every operation as syntax, one lemma per constructor. -/

namespace Sys2Proof.Laws.RecordLength

/-- The record of a well-formed operation has the one length of the format, `2 + 4*N_AX` bytes (R80, R89). -/
def Statement (i : Instr) : Prop :=
  ∀ (cfg : Cfg) (bytes : List Byte), i.wellFormed cfg = true → encode cfg i = some bytes → bytes.length = cfg.cmdLen

/-- A command's record fits. -/
theorem of_record {i : Instr} (op : Cfg → Byte) (p : Payload) (hw : ∀ cfg, i.wellFormed cfg = true → p.fits cfg = true)
    (he : ∀ cfg, encode cfg i = some (encodeRecord (op cfg) p)) : Statement i := by
  intro cfg bytes h hb
  rw [he, Option.some.injEq] at hb
  exact hb ▸ encodeRecord_length_of_fits _ (hw cfg h)

/-- An operation without a wire encoding has no record (R86). -/
theorem of_none {i : Instr} (he : ∀ cfg, encode cfg i = none) : Statement i := by
  intro cfg bytes _ hb
  rw [he] at hb
  exact absurd hb (by simp)

theorem getState (p : Payload) : Statement (.getState p) := of_record Cfg.opGet p (fun _ h => h) fun _ => rfl
theorem setState (p : Payload) : Statement (.setState p) := of_record Cfg.opSet p (fun _ h => h) fun _ => rfl
theorem resetReq (p : Payload) : Statement (.resetReq p) := of_record Cfg.opReset p (fun _ h => h) fun _ => rfl
theorem bootReq (p : Payload) : Statement (.bootReq p) := of_record Cfg.opBoot p (fun _ h => h) fun _ => rfl
theorem unrecognized (op : Byte) (p : Payload) : Statement (.unrecognized op p) :=
  of_record (fun _ => op) p (fun _ h => (Bool.and_eq_true _ _ ▸ h : _ ∧ _).1) fun _ => rfl
theorem accept : Statement .accept := of_none fun _ => rfl
theorem batch : Statement .batch := of_none fun _ => rfl
theorem updateAxis (i : Nat) : Statement (.updateAxis i) := of_none fun _ => rfl
theorem clrMask : Statement .clrMask := of_none fun _ => rfl
theorem snapshot : Statement .snapshot := of_none fun _ => rfl
theorem derive (c : Nat) (f : Word16) : Statement (.derive c f) := of_none fun _ => rfl
theorem enable (c : Nat) : Statement (.enable c) := of_none fun _ => rfl
theorem disable (c : Nat) : Statement (.disable c) := of_none fun _ => rfl
theorem guardEnter : Statement .guardEnter := of_none fun _ => rfl
theorem guardExit : Statement .guardExit := of_none fun _ => rfl
theorem ovf (c : Nat) (g : Bool) : Statement (.ovf c g) := of_none fun _ => rfl
theorem track (i : Nat) : Statement (.track i) := of_none fun _ => rfl

end Sys2Proof.Laws.RecordLength
end

