-- ==== Sys2Proof/Laws/Sequencer.lean ====
section
/-! SUPPORT. What a step is, by the input it takes (R186), and the one lemma that says everything a step can do. -/

namespace Sys2Proof.Machine

variable {s t : State}

/-- The state a turn starts from: its input consumed, the strobes of the turn before lowered (R45), no output written yet
(R73). -/
def State.turned (s : State) : State := ({ s with inputs := s.inputs.tail } : State).startTurn

@[simp] theorem turned_cfg : s.turned.cfg = s.cfg := rfl
@[simp] theorem turned_ax : s.turned.ax = s.ax := rfl
@[simp] theorem turned_ch : s.turned.ch = s.ch := rfl
@[simp] theorem turned_dirline : s.turned.dirline = s.dirline := rfl
@[simp] theorem turned_pend : s.turned.pend = s.pend := rfl
@[simp] theorem turned_overrun : s.turned.overrun = s.overrun := rfl
@[simp] theorem turned_ie : s.turned.ie = s.ie := rfl
@[simp] theorem turned_savedIe : s.turned.savedIe = s.savedIe := rfl
@[simp] theorem turned_fgPc : s.turned.fgPc = s.fgPc := rfl
@[simp] theorem turned_cmd : s.turned.cmd = s.cmd := rfl
@[simp] theorem turned_status : s.turned.status = s.status := rfl
@[simp] theorem turned_cmdPort : s.turned.cmdPort = s.cmdPort := rfl
@[simp] theorem turned_outputs : s.turned.outputs = [] := rfl
@[simp] theorem turned_axis (i : Nat) : s.turned.axis i = s.axis i := rfl
@[simp] theorem turned_channel (c : Nat) : s.turned.channel c = s.channel c := rfl
@[simp] theorem turned_line (i : Nat) : s.turned.line i = s.line i := rfl
@[simp] theorem turned_pending (i : Nat) : s.turned.pending i = s.pending i := rfl
@[simp] theorem turned_overran (i : Nat) : s.turned.overran i = s.overran i := rfl

/-- Validity reads neither the inputs nor the strobes nor the output writes. -/
@[simp] theorem turned_valid : s.turned.valid = s.valid := rfl

@[simp] theorem startTurn_lowered : s.startTurn.valid = s.valid := rfl

/-! ## The turns of a valid state -/

theorem foregroundTurn_of_valid (h : s.valid = true) : foregroundTurn s = foregroundStep s.startTurn :=
  whenValid_of_valid h

theorem step_foreground {rest : List Input} (h : s.valid = true) (hi : s.inputs = .foreground :: rest) :
    step s = foregroundStep s.turned := by
  unfold step State.turned
  rw [hi]
  exact whenValid_of_valid (s := { s with inputs := rest }) h

theorem step_overflow {rest : List Input} {c : Nat} {g : Bool} (hi : s.inputs = .overflow c g :: rest) :
    step s = exec (.ovf c g) s.turned := by
  unfold step State.turned
  rw [hi]
  rfl

theorem step_tracker {rest : List Input} {i : Nat} (hi : s.inputs = .tracker i :: rest) :
    step s = exec (.track i) s.turned := by
  unfold step State.turned
  rw [hi]
  rfl

theorem step_present {rest : List Input} {bytes : List Byte} (h : s.valid = true)
    (hi : s.inputs = .present bytes :: rest) : step s = .next (presentRecord bytes s.turned) := by
  unfold step State.turned
  rw [hi]
  exact whenValid_of_valid (s := { s with inputs := rest }) h

theorem step_boot {rest : List Input} (h : s.valid = true) (hi : s.inputs = .boot :: rest) :
    step s = .next (bootStep s.turned) := by
  unfold step State.turned
  rw [hi]
  exact whenValid_of_valid (s := { s with inputs := rest }) h

theorem step_rst {rest : List Input} (h : s.valid = true) (hi : s.inputs = .rst :: rest) :
    step s = .next (assertReset { s with inputs := rest }) := by
  unfold step
  rw [hi]
  exact whenValid_of_valid (s := { s with inputs := rest }) h

/-! ## The UPD step (R155) -/

theorem updTurn_past {k : Nat} (hk : k = s.cfg.nAx) : updTurn k s = .next (s.setPhase .clr) := if_pos hk

theorem updTurn_dirty {k : Nat} (hk : k ≠ s.cfg.nAx) (hd : (s.axis k).dirty = true) :
    updTurn k s = exec (.updateAxis k) s := by
  rw [updTurn, if_neg hk, if_pos hd]

theorem updTurn_clean {k : Nat} (hk : k ≠ s.cfg.nAx) (hd : (s.axis k).dirty = false) :
    updTurn k s = .next (s.setPhase (.upd (k + 1))) := by
  rw [updTurn, if_neg hk, if_neg (by simp [hd])]

/-! ## Everything a step can do -/

/-- The operations that are steps of an agent: the foreground's, the events and the trackers (R186). -/
def Instr.IsAgentStep (i : Instr) : Prop :=
  i = .accept ∨ i = .batch ∨ (∃ k, i = .updateAxis k) ∨ i = .clrMask ∨ i = .snapshot ∨ (∃ c g, i = .ovf c g) ∨
    ∃ k, i = .track k

/-- What the foreground's step can do. -/
theorem foregroundStep_cases (h : foregroundStep s = .next t) :
    (∃ i, Instr.IsAgentStep i ∧ exec i s = .next t) ∨ (s.fgPc = .upd s.cfg.nAx ∧ t = s.setPhase .clr) ∨
      ∃ k, s.fgPc = .upd k ∧ k ≠ s.cfg.nAx ∧ (s.axis k).dirty = false ∧ t = s.setPhase (.upd (k + 1)) := by
  unfold foregroundStep at h
  split at h
  · exact .inl ⟨.accept, .inl rfl, h⟩
  · exact .inl ⟨.batch, .inr (.inl rfl), h⟩
  · next k hk =>
    by_cases hn : k = s.cfg.nAx
    · subst hn
      rw [updTurn_past rfl] at h
      exact .inr (.inl ⟨hk, by simpa using h.symm⟩)
    · cases hd : (s.axis k).dirty with
      | true =>
        rw [updTurn_dirty hn hd] at h
        exact .inl ⟨.updateAxis k, .inr (.inr (.inl ⟨k, rfl⟩)), h⟩
      | false =>
        rw [updTurn_clean hn hd] at h
        exact .inr (.inr ⟨k, hk, hn, hd, by simpa using h.symm⟩)
  · exact .inl ⟨.clrMask, .inr (.inr (.inr (.inl rfl))), h⟩
  · exact .inl ⟨.snapshot, .inr (.inr (.inr (.inr (.inl rfl)))), h⟩

/-- A step that answers a next state is an operation of an agent on the turned state, a UPD step without an update, or
one of the three turns of the outside. -/
theorem step_cases (h : step s = .next t) :
    s.valid = true ∧
      ((∃ i, Instr.IsAgentStep i ∧ exec i s.turned = .next t) ∨
        (s.fgPc = .upd s.cfg.nAx ∧ t = s.turned.setPhase .clr) ∨
        (∃ k, s.fgPc = .upd k ∧ k ≠ s.cfg.nAx ∧ (s.axis k).dirty = false ∧ t = s.turned.setPhase (.upd (k + 1))) ∨
        (s.inputs.head? = some .rst ∧ t = assertReset { s with inputs := s.inputs.tail }) ∨
        (s.inputs.head? = some .boot ∧ t = bootStep s.turned) ∨
        ∃ bytes, s.inputs.head? = some (.present bytes) ∧ t = presentRecord bytes s.turned) := by
  have hfg : ∀ u : State, foregroundTurn u = .next t → u.valid = true ∧ foregroundStep u.startTurn = .next t :=
    fun u hu => whenValid_next.mp hu
  have hop : ∀ i, exec i s.turned = .next t → Instr.IsAgentStep i → s.valid = true := by
    rintro i hi (rfl | rfl | ⟨k, rfl⟩ | rfl | rfl | ⟨c, g, rfl⟩ | ⟨k, rfl⟩) <;> exact (whenValid_next.mp hi).1
  unfold step at h
  split at h
  · next hi =>
    have hs : s.turned = s.startTurn := by
      unfold State.turned
      rw [hi]
      cases s
      simp_all
    unfold defaultTurn at h
    split at h
    · next k _ =>
      rw [← hs] at h
      have hk : Instr.IsAgentStep (.track k) := .inr (.inr (.inr (.inr (.inr (.inr ⟨k, rfl⟩)))))
      exact ⟨hop _ h hk, .inl ⟨_, hk, h⟩⟩
    · obtain ⟨hv, hf⟩ := hfg _ h
      rw [← hs] at hf
      refine ⟨hv, ?_⟩
      obtain h | h | h := foregroundStep_cases hf
      · exact .inl h
      · exact .inr (.inl h)
      · exact .inr (.inr (.inl h))
  · next inp rest hi =>
    have hs : s.turned = ({ s with inputs := rest } : State).startTurn := by
      unfold State.turned
      rw [hi]
      rfl
    have ht : s.inputs.tail = rest := by rw [hi]; rfl
    have hh : s.inputs.head? = some inp := by rw [hi]; rfl
    cases inp with
    | present bytes =>
      obtain ⟨hv, h⟩ := whenValid_next.mp h
      rw [← hs] at h
      exact ⟨hv, .inr (.inr (.inr (.inr (.inr ⟨bytes, hh, by simpa using h.symm⟩))))⟩
    | overflow c g =>
      have h : exec (.ovf c g) s.turned = .next t := hs ▸ h
      have hk : Instr.IsAgentStep (.ovf c g) := .inr (.inr (.inr (.inr (.inr (.inl ⟨c, g, rfl⟩)))))
      exact ⟨hop _ h hk, .inl ⟨_, hk, h⟩⟩
    | tracker k =>
      have h : exec (.track k) s.turned = .next t := hs ▸ h
      have hk : Instr.IsAgentStep (.track k) := .inr (.inr (.inr (.inr (.inr (.inr ⟨k, rfl⟩)))))
      exact ⟨hop _ h hk, .inl ⟨_, hk, h⟩⟩
    | foreground =>
      obtain ⟨hv, hf⟩ := hfg _ h
      rw [← hs] at hf
      refine ⟨hv, ?_⟩
      obtain h | h | h := foregroundStep_cases hf
      · exact .inl h
      · exact .inr (.inl h)
      · exact .inr (.inr (.inl h))
    | rst =>
      obtain ⟨hv, h⟩ := whenValid_next.mp h
      exact ⟨hv, .inr (.inr (.inr (.inl ⟨hh, by rw [ht]; simpa using h.symm⟩)))⟩
    | boot =>
      obtain ⟨hv, h⟩ := whenValid_next.mp h
      rw [← hs] at h
      exact ⟨hv, .inr (.inr (.inr (.inr (.inl ⟨hh, by simpa using h.symm⟩))))⟩

end Sys2Proof.Machine
end

