-- ==== Sys2Proof/Tests/Slice0.lean ====
section
/-! SUPPORT. Tests: the checks of WellFormed on ill-formed terms, records written out from the format, the vectors of
95_test_vectors.md on single operations, and for each obligation with hypotheses a state that meets them.

Every expected value is the spec's: a vector V<n>, a program P<n>, or the encoding of R81. -/

namespace Sys2Proof.Tests

open Sys2Proof.Machine

/-! ## The helper states -/

/-- What a field of the next state is; nothing for a refusal. -/
def after {α : Type} (r : Result) (f : State → α) : Option α :=
  match r with
  | .next t => some (f t)
  | .fault _ => none
  | .refused _ => none

/-- The launch state: reset, then the boot step (R235). -/
def launch : State := { State.reset with ie := true }

/-- The launch state with axis 0 and channel 0 at the given registers and `DIRLINE[0]` at `line`. -/
def launchWith (r : AxisRegs) (c : ChannelRegs) (line : Bool) : State :=
  ((launch.setAxis 0 r).setChannel 0 c).setLine 0 line

/-- Channel 0 running at 10000 steps per second (V31). -/
def chanOn : ChannelRegs := { psc := 0, top := 400#16, isOn := true, ctl := 0x19#8 }

/-- The start state of V31 to V40. -/
def moving : State := launchWith ⟨10000#16, 1000#16, 1200#16, true, false⟩ chanOn true

/-- `moving` one step before its target, an event latched (V27). -/
def arriving : State := (launchWith ⟨10000#16, 1199#16, 1200#16, true, false⟩ chanOn true).setPending 0 true

/-- A dirty axis in the phase of its update (V43). -/
def updating : State :=
  (launchWith ⟨61#16, 1000#16, 1200#16, true, true⟩ chanOn true).setPhase (.upd 0)

/-- Axis 2 with a pending request that its channel clamps (V43b). -/
def updatingClamped : State :=
  (launch.setAxis 2 ⟨61#16, 0#16, -5#16, false, true⟩).setPhase (.upd 2)

/-- The record of program P1: axis 0 to 1200 at 10000. -/
def recordP1 : List Byte :=
  [0x02#8, 0x01#8, 0x10#8, 0x27#8, 0xB0#8, 0x04#8, 0#8, 0#8, 0#8, 0#8, 0#8, 0#8, 0#8, 0#8]

/-- The content of V35's record: mask 0x07, slots filled. -/
def payloadV35 : Payload := ⟨0x07#8, [⟨1234#16, -7#16⟩, ⟨1#16, 1#16⟩, ⟨2#16, 2#16⟩]⟩

/-- A content at the ends of its fields. -/
def payloadEnds : Payload := ⟨0xFF#8, [⟨65535#16, 32767#16⟩, ⟨0#16, -32768#16⟩, ⟨1#16, -1#16⟩]⟩

/-- A content with a slot too few. -/
def payloadShort : Payload := ⟨0x01#8, [⟨1#16, 1#16⟩, ⟨2#16, 2#16⟩]⟩

/-- `moving` with a record on the port. -/
def withRecord (bytes : List Byte) : State := { moving with cmdPort := some bytes }

/-- The state BATCH starts from with the record `bytes` latched. -/
def batching (bytes : List Byte) : State := { moving with cmd := Memory.writeBytes [] 0 bytes, fgPc := .batch }

/-! ## WellFormed refuses an ill-formed term at each check -/

theorem test_cfgT_accepted : Cfg.test.accepted = true := by decide
theorem test_wf1_refuses_no_axes : ({ Cfg.test with nAx := 0 } : Cfg).wf1 = false := by decide
theorem test_wf1_refuses_nine_axes : ({ Cfg.test with nAx := 9 } : Cfg).wf1 = false := by decide
theorem test_wf2_refuses_shared_channel :
    ({ Cfg.test with axes := [.standard 0 0, .standard 0 0, .standard 2 0] } : Cfg).wf2 = false := by decide
theorem test_wf2_refuses_missing_channel :
    ({ Cfg.test with axes := [.standard 0 0, .standard 1 0, .standard 3 0] } : Cfg).wf2 = false := by decide
theorem test_wf3_refuses_descending_ratios :
    ({ Cfg.test with channels := [{ ChannelCfg.listA 0 with ratios := [8, 1, 64, 256, 1024] }] } : Cfg).wf3 = false := by
  decide
theorem test_wf3_refuses_ratio_zero :
    ({ Cfg.test with channels := [{ ChannelCfg.listA 0 with ratios := [0, 8] }] } : Cfg).wf3 = false := by decide
theorem test_wf4_refuses_scale_zero :
    ({ Cfg.test with channels := [{ ChannelCfg.listA 0 with scale := 0 }] } : Cfg).wf4 = false := by decide
theorem test_wf4_refuses_wide_counter :
    ({ Cfg.test with channels := [{ ChannelCfg.listA 0 with cmax := 65536 }] } : Cfg).wf4 = false := by decide
theorem test_wf5_refuses_equal_codes :
    ({ Cfg.test with channels := [{ ChannelCfg.listA 0 with csCode := [1, 1, 3, 4, 5] }] } : Cfg).wf5 = false := by decide
theorem test_wf5_refuses_code_outside_field :
    ({ Cfg.test with channels := [{ ChannelCfg.listA 0 with csCode := [1, 2, 3, 4, 8] }] } : Cfg).wf5 = false := by decide
theorem test_wf6_refuses_equal_polarities :
    ({ Cfg.test with axes := [{ AxisCfg.standard 0 0 with dirNeg := true }] } : Cfg).wf6 = false := by decide
theorem test_wf6_refuses_far_home :
    ({ Cfg.test with axes := [.standard 0 32768] } : Cfg).wf6 = false := by decide
/-- Part 2 of 95_test_vectors.md: list A with `fmax = 65535` achieves 65573 at 65535. -/
theorem test_wf7_refuses_wide_frequency :
    ({ Cfg.test with axes := [{ AxisCfg.standard 0 0 with fmax := 65535 }] } : Cfg).wf7 = false := by decide
theorem test_wf8_refuses_equal_opcodes : ({ Cfg.test with opSet := 0x01 } : Cfg).wf8 = false := by decide
theorem test_legalValues_refuses_opcode_99 : ({ Cfg.test with opBoot := 99 } : Cfg).legalValues = false := by decide
theorem test_legalValues_refuses_ctlInit_in_field :
    ({ Cfg.test with channels := [.listA 0x01] } : Cfg).legalValues = false := by decide
theorem test_legalValues_refuses_empty_field :
    ({ Cfg.test with channels := [{ ChannelCfg.listA 0 with csMask := 0 }] } : Cfg).legalValues = false := by decide
theorem test_wellFormed_refuses_short_records :
    [Instr.getState payloadShort, .setState payloadShort, .resetReq payloadShort, .bootReq payloadShort,
      .unrecognized 99 payloadShort].all (fun i => !i.wellFormed Cfg.test) = true := by decide
theorem test_wellFormed_refuses_recognised_opcode :
    (Instr.unrecognized 0x02 payloadV35).wellFormed Cfg.test = false := by decide
theorem test_wellFormed_refuses_missing_index :
    [Instr.updateAxis 3, .derive 3 1, .enable 3, .disable 3, .ovf 3 true, .track 3].all
      (fun i => !i.wellFormed Cfg.test) = true := by decide

/-! ## Decoding: records written out from R81 and R87 -/

/-- V31. -/
theorem test_decode_get :
    decode Cfg.test [0x01#8, 0#8, 0#8, 0#8, 0#8, 0#8, 0#8, 0#8, 0#8, 0#8, 0#8, 0#8, 0#8, 0#8] =
      .ok (.getState ⟨0#8, [⟨0#16, 0#16⟩, ⟨0#16, 0#16⟩, ⟨0#16, 0#16⟩]⟩) := by decide
/-- V40: `3D 00` is 61 and `FB FF` is -5. -/
theorem test_decode_set :
    decode Cfg.test [0x02#8, 0x04#8, 0#8, 0#8, 0#8, 0#8, 0#8, 0#8, 0#8, 0#8, 0x3D#8, 0x00#8, 0xFB#8, 0xFF#8] =
      .ok (.setState ⟨0x04#8, [⟨0#16, 0#16⟩, ⟨0#16, 0#16⟩, ⟨61#16, -5#16⟩]⟩) := by decide
/-- V35. -/
theorem test_decode_unrecognized :
    decode Cfg.test [0x63#8, 0x07#8, 0xD2#8, 0x04#8, 0xF9#8, 0xFF#8, 1#8, 0#8, 1#8, 0#8, 2#8, 0#8, 2#8, 0#8] =
      .ok (.unrecognized 99#8 payloadV35) := by decide
/-- V36 and V37. -/
theorem test_decode_filtered :
    decodeTableWord 8 0xC8 = some (.resetReq ⟨0#8, [⟨0#16, 0#16⟩, ⟨0#16, 0#16⟩, ⟨0#16, 0#16⟩]⟩) ∧
      decodeTableWord 8 0xC9 = some (.bootReq ⟨0#8, [⟨0#16, 0#16⟩, ⟨0#16, 0#16⟩, ⟨0#16, 0#16⟩]⟩) := by decide
/-- R80. -/
theorem test_decode_refuses_other_lengths :
    decode Cfg.test [0x02#8] = .error (.recordLength 1) ∧
      decode Cfg.test (recordP1 ++ [0#8]) = .error (.recordLength 15) := by decide
/-- R94. -/
theorem test_encode_set :
    encode Cfg.test (.setState ⟨0x01#8, [⟨10000#16, 1200#16⟩, ⟨0#16, 0#16⟩, ⟨0#16, 0#16⟩]⟩) = some recordP1 := by decide

/-! ## Single operations, from the vectors -/

/-- V1, V2, V3, V5, V6 and the further points of list A: (request, index, reload value, achieved frequency). -/
theorem test_derive_listA :
    [(50000, 0, 80, 50000), (61, 1, 8196, 61), (1, 2, 62500, 1), (8, 1, 62500, 8), (62, 0, 64516, 62),
      (30000, 0, 133, 30075), (10000, 0, 400, 10000), (49383, 0, 80, 50000)].all (fun (f, k, t, fa) =>
        derivePsc 16000000 (.listA 0x18) f == k && deriveTop 16000000 (.listA 0x18) f == t &&
          deriveResult Cfg.test 0 f == fa) = true := by decide
/-- V10 to V18. -/
theorem test_derive_listB :
    [(1, 4, 255, 122), (61, 4, 255, 122), (122, 4, 255, 122), (123, 4, 254, 123), (15686, 0, 255, 15686),
      (15625, 1, 32, 15625), (50000, 0, 80, 50000), (491, 2, 254, 492), (1961, 1, 254, 1968)].all (fun (f, k, t, fa) =>
        derivePsc 16000000 (.listB 0x08) f == k && deriveTop 16000000 (.listB 0x08) f == t &&
          deriveResult Cfg.test 2 f == fa) = true := by decide
/-- V8: a zero request keeps the parameters and clears the field. -/
theorem test_derive_zero :
    after (exec (.derive 0 0) moving) (·.channel 0) = some { psc := 0, top := 400#16, isOn := false, ctl := 0x18#8 } := by
  decide
/-- V22. -/
theorem test_enable :
    after (exec (.enable 2) (launch.setChannel 2 { psc := 4, top := 255, isOn := false, ctl := 0x08 })) (·.channel 2) =
      some { psc := 4, top := 255#16, isOn := true, ctl := 0x0D#8 } := by decide
/-- V22b: a field that was not cleared is or-ed. -/
theorem test_enable_ors :
    after (exec (.enable 0) (launch.setChannel 0 { psc := 1, top := 400, isOn := true, ctl := 0x19 })) (·.channel 0) =
      some { psc := 1, top := 400#16, isOn := true, ctl := 0x1B#8 } := by decide
/-- V20. -/
theorem test_disable :
    after (exec (.disable 0) (launch.setChannel 0 { psc := 1, top := 8196, isOn := true, ctl := 0x1A })) (·.channel 0) =
      some { psc := 1, top := 8196#16, isOn := false, ctl := 0x18#8 } := by decide
/-- V44. -/
theorem test_guardEnter : after (exec .guardEnter moving) (fun t => (t.ie, t.savedIe)) = some (false, true) := by decide
/-- V45 and V46: the saved copy is restored, set or clear. -/
theorem test_guardExit :
    after (exec .guardExit { moving with ie := false, savedIe := true }) (·.ie) = some true ∧
      after (exec .guardExit { moving with ie := false, savedIe := false }) (·.ie) = some false := by decide
/-- V23 and V24. -/
theorem test_ovf :
    after (exec (.ovf 0 true) moving) (fun t => (t.pending 0, t.overran 0)) = some (true, false) ∧
      after (exec (.ovf 0 false) moving) id = some moving := by decide
/-- V25. -/
theorem test_ovf_overrun :
    after (exec (.ovf 0 true) arriving) (fun t => (t.pending 0, t.overran 0)) = some (true, true) := by decide
/-- V27; the channel is disabled before the line is idled (R134). -/
theorem test_track_stops :
    after (exec (.track 0) arriving) (fun t => (t.axis 0, t.channel 0, t.line 0, t.pending 0, t.outputs)) =
      some (⟨0#16, 1200#16, 1200#16, true, false⟩, ⟨0, 400#16, false, 0x18#8⟩, false, false,
        [.ctl 0 0x18#8, .line 0 false]) := by decide
/-- V30: the wrap. -/
theorem test_track_wraps :
    after (exec (.track 0) ((launchWith ⟨0, 32767, 5, true, false⟩ ChannelRegs.absent false).setPending 0 true))
      (fun t => ((t.axis 0).pos.toInt, t.pending 0)) = some (-32768, false) := by decide
/-- P1, the step ACCEPT. -/
theorem test_accept :
    after (exec .accept (withRecord recordP1)) (fun t => (t.fgPc, t.cmd.read 1, t.cmd.read16 2, t.cmdPort, t.cmdTake)) =
      some (.batch, 0x01#8, 10000#16, none, true) := by decide
/-- V36. -/
theorem test_resetReq :
    after (exec (.resetReq payloadV35) moving) (fun t => (t.fgPc, t.cmd, t.reqReset, t.reqBoot)) =
      some (.idle, [], true, false) := by decide
/-- V37. -/
theorem test_bootReq :
    after (exec (.bootReq payloadV35) moving) (fun t => (t.fgPc, t.cmd, t.reqReset, t.reqBoot)) =
      some (.idle, [], false, true) := by decide
/-- V31: a GET_STATE is answered by the snapshot. -/
theorem test_getState : after (exec (.getState payloadV35) moving) (fun t => (t.fgPc, t.cmd.read 0)) =
    some (.snap, 0x01#8) := by decide
/-- V35: the latched record keeps its mask. -/
theorem test_unrecognized : after (exec (.unrecognized 99 payloadV35) moving) (fun t => (t.fgPc, t.cmd.read 0, t.cmd.read 1)) =
    some (.snap, 0x63#8, 0x07#8) := by decide
/-- V33: the slot of axis 1 is latched. -/
theorem test_setState :
    after (exec (.setState ⟨0x02, [⟨0, 0⟩, ⟨65535, 10⟩, ⟨0, 0⟩]⟩) moving)
      (fun t => (t.fgPc, t.cmd.read16 6, t.cmd.read16 8)) = some (.batch, 65535#16, 10#16) := by decide
/-- V33: the request is clamped, the other axes are untouched. -/
theorem test_batch_clamps :
    after (exec .batch (batching [0x02, 0x02, 0, 0, 0, 0, 0xFF, 0xFF, 0x0A, 0, 0, 0, 0, 0]))
      (fun t => (t.axis 0, t.axis 1, t.fgPc)) =
        some (⟨10000#16, 1000#16, 1200#16, true, false⟩, ⟨50000#16, 0#16, 10#16, true, true⟩, .upd 0) := by decide
/-- V34: at the target the frequency is 0 and the direction kept. -/
theorem test_batch_at_target :
    after (exec .batch (batching [0x02, 0x01, 0x50, 0xC3, 0xE8, 0x03, 0, 0, 0, 0, 0, 0, 0, 0])) (·.axis 0) =
      some ⟨0#16, 1000#16, 1000#16, true, true⟩ := by decide
/-- V43: the field is cleared before the new code is or-ed in. -/
theorem test_updateAxis :
    after (exec (.updateAxis 0) updating) (fun t => (t.axis 0, t.channel 0, t.line 0, t.fgPc)) =
      some (⟨61#16, 1000#16, 1200#16, true, false⟩, ⟨1, 8196#16, true, 0x1A#8⟩, true, .upd 1) := by decide
/-- V43: the external writes in order, and no write of the step before. -/
theorem test_step_shows_its_writes :
    after (step { updating with inputs := [.foreground], outputs := [.line 2 true] }) (·.outputs) =
      some [.ctl 0 0x18#8, .psc 0 1, .top 0 8196#16, .line 0 true, .ctl 0 0x1A#8] := by decide
/-- V43b: the clamped reload value. -/
theorem test_updateAxis_clamped :
    after (exec (.updateAxis 2) updatingClamped) (fun t => (t.axis 2, t.channel 2, t.line 2)) =
      some (⟨122#16, 0#16, -5#16, false, false⟩, ⟨4, 255#16, true, 0x0D#8⟩, false) := by decide
/-- P1, the step CLRMASK. -/
theorem test_clrMask :
    after (exec .clrMask ((batching recordP1).setPhase .clr)) (fun t => (t.fgPc, t.cmd.read 0, t.cmd.read 1, t.cmd.read16 2)) =
      some (.snap, 0x02#8, 0#8, 10000#16) := by decide
/-- V31: the status record, its strobe and the phase. -/
theorem test_snapshot :
    after (exec .snapshot { moving with cmd := [(0, 0x01#8)], fgPc := .snap })
      (fun t => ((List.range 13).map t.status.read, t.statusValid, t.fgPc)) =
        some ([0x01#8, 0x10#8, 0x27#8, 0xE8#8, 0x03#8, 0#8, 0#8, 0#8, 0#8, 0#8, 0#8, 0#8, 0#8], true, .idle) := by decide

/-! ## Witnesses: for each obligation with hypotheses, a state and operands that meet all of them -/

/-- `moving` with the inputs `l`. -/
def withInputs (l : List Input) : State := { moving with inputs := l }

/-- A running axis with a latched event, one step before its target (V27). -/
theorem witness_RunningAxisApproachesItsTarget :
    arriving.Inv ∧ 0 < arriving.cfg.nAx ∧ arriving.running 0 = true ∧ arriving.pending 0 = true ∧ arriving.ie = true := by
  decide
theorem witness_ResetHoldsTheTable : Cfg.test.accepted = true ∧ 0 < Cfg.test.nAx ∧ 2 < Cfg.test.nAx := by decide
theorem witness_RstRestoresTheResetValues :
    (withInputs [.rst]).valid = true ∧ (withInputs [.rst]).inputs = .rst :: [] := by decide
theorem witness_BootStepEnablesTheTrackers :
    (State.valid { State.reset with inputs := [.boot] } = true ∧ State.reset.fgPc = .idle) ∧
      (withInputs [.boot]).valid = true ∧ (State.valid { updating with inputs := [.boot] } = true ∧ updating.fgPc ≠ .idle) := by
  decide
theorem witness_ResetAndBootReachALaunchState : Cfg.test.accepted = true := by decide
theorem witness_RefusedConfigurationNeverRuns :
    (State.cfg { moving with cfg := { Cfg.test with nAx := 9 } }).accepted = false := by decide
theorem witness_MissingIndexIsRefused :
    moving.valid = true ∧ moving.cfg.nAx ≤ 3 ∧
      Instr.track 3 ∈ [Instr.updateAxis 3, .derive 3 1, .enable 3, .disable 3, .ovf 3 true, .track 3] := by decide
theorem witness_FrequencyRangeCheckIsExact :
    Cfg.test.wf2 = true ∧ Cfg.test.wf3 = true ∧ Cfg.test.wf4 = true := by decide
theorem witness_DecodeOfEncodeIsTheCommand :
    Cfg.test.accepted = true ∧ (Instr.setState payloadEnds).wellFormed Cfg.test = true ∧
      encode Cfg.test (.setState payloadEnds) =
        some [0x02#8, 0xFF#8, 0xFF#8, 0xFF#8, 0xFF#8, 0x7F#8, 0#8, 0#8, 0#8, 0x80#8, 1#8, 0#8, 0xFF#8, 0xFF#8] := by decide
theorem witness_DecodeOfEncodeIsTheCommand_unrecognized :
    (Instr.unrecognized 0 payloadEnds).wellFormed Cfg.test = true ∧
      (Instr.unrecognized 255 payloadEnds).wellFormed Cfg.test = true ∧
        (Instr.getState payloadEnds).wellFormed Cfg.test = true ∧ (Instr.resetReq payloadEnds).wellFormed Cfg.test = true ∧
          (Instr.bootReq payloadEnds).wellFormed Cfg.test = true := by decide
theorem witness_EncodeOfDecodeIsTheRecord :
    decode Cfg.test recordP1 = .ok (.setState ⟨0x01#8, [⟨10000#16, 1200#16⟩, ⟨0#16, 0#16⟩, ⟨0#16, 0#16⟩]⟩) := by decide
theorem witness_OnlyTheLengthIsRejected :
    recordP1.length = 2 + 4 * Cfg.test.nAx ∧ recordP1.tail.length ≠ 2 + 4 * Cfg.test.nAx ∧
      (0#8 :: recordP1).length ≠ 2 + 4 * Cfg.test.nAx ∧ ([] : List Byte).length ≠ 2 + 4 * Cfg.test.nAx := by decide
theorem witness_OpcodeByteSelectsTheOperation :
    Cfg.test.accepted = true ∧ payloadEnds.fits Cfg.test = true ∧ 99#8 ≠ Cfg.test.opGet ∧ 99#8 ≠ Cfg.test.opSet ∧
      99#8 ≠ Cfg.test.opReset ∧ 99#8 ≠ Cfg.test.opBoot := by decide
theorem witness_RecordFieldsStandAtTheirOffsets :
    payloadEnds.fits Cfg.test = true ∧ payloadEnds.slots[0]? = some ⟨65535#16, 32767#16⟩ ∧
      payloadEnds.slots[2]? = some ⟨1#16, -1#16⟩ := by decide
theorem witness_RecordStoresReadBack : Memory.wf [(0, 0x02#8), (3, 0x27#8), (4, 0xB0#8)] = true := by decide
/-- The clauses `f = 0`, a fitting request, and the clamped one. -/
theorem witness_DeriveWritesTheFirstFittingPair :
    moving.valid = true ∧ 0 < moving.cfg.nAx ∧ 2 < moving.cfg.nAx ∧ (0#16).toNat = 0 ∧ (65535#16).toNat ≠ 0 ∧
      after (exec (.derive 2 1#16) moving) (fun t => decide (1 ≤ (t.channel 2).top.toNat)) = some true := by decide
/-- The least and the greatest request, on both ratio lists: 50000 fits at once, 1 is clamped on list B. -/
theorem witness_AchievedFrequencyBounds :
    Cfg.test.accepted = true ∧ 2 < Cfg.test.nAx ∧ 1 ≤ 50000 ∧ 50000 ≤ (Cfg.test.axis 0).fmax ∧
      Cfg.test.fClk / (4 * 50000 * 1) ≤ (Cfg.test.channel 0).cmax ∧
        (Cfg.test.channel 2).cmax < Cfg.test.fClk / (4 * 1 * 128) := by decide
theorem witness_EnableOrsTheCode : moving.valid = true ∧ 2 < moving.cfg.nAx := by decide
theorem witness_DisableClearsTheField : arriving.valid = true ∧ 2 < arriving.cfg.nAx := by decide
theorem witness_UnrelatedControlBitsArePreserved :
    moving.valid = true ∧ 0 < moving.cfg.nAx ∧ exec (.enable 0) moving = .next (enableChannel 0 moving) ∧
      exec (.disable 0) moving = .next (disableChannel 0 moving) :=
  ⟨by decide, by decide, exec_enable_next.mpr ⟨by decide, by decide, rfl⟩, exec_disable_next.mpr ⟨by decide, by decide, rfl⟩⟩
theorem witness_DisableIsIdempotent :
    moving.valid = true ∧ 0 < moving.cfg.nAx ∧ exec (.disable 0) moving = .next (disableChannel 0 moving) ∧
      (moving.channel 2).isOn = false ∧ moving.clockField 2 = 0#8 :=
  ⟨by decide, by decide, exec_disable_next.mpr ⟨by decide, by decide, rfl⟩, by decide, by decide⟩
theorem witness_GuardEnterSavesAndClears : moving.valid = true ∧ moving.ie = true := by decide
theorem witness_GuardExitRestores :
    moving.valid = true ∧ exec .guardEnter moving = .next (guardEnter moving) ∧
      exec .guardExit (guardEnter moving) = .next (guardExit (guardEnter moving)) :=
  ⟨by decide, exec_guardEnter_next.mpr ⟨by decide, rfl⟩, exec_guardExit_next.mpr ⟨by decide, rfl⟩⟩
theorem witness_GenuineEventIsLatchedOneDeep :
    arriving.valid = true ∧ 0 < arriving.cfg.nAx ∧ arriving.clocked (arriving.cfg.chan 0) = true := by decide
theorem witness_StoppedChannelRaisesNothing :
    moving.valid = true ∧ 2 < moving.cfg.nAx ∧ (moving.channel 2).ctl &&& (moving.cfg.channel 2).csMask = 0#8 := by decide
/-- Both directions, at the ends of the range, with the target hit and missed. -/
theorem witness_TrackCountsAndStops :
    (arriving.valid = true ∧ 0 < arriving.cfg.nAx ∧ arriving.pending 0 = true ∧ arriving.ie = true ∧
      (arriving.axis 0).dir = (arriving.cfg.axis 0).dirPos) ∧
    (State.valid ((launchWith ⟨0, -32768, 5, false, false⟩ ⟨0, 0, false, 0x18⟩ false).setPending 0 true) = true ∧
      (false ≠ (Cfg.test.axis 0).dirPos)) := by decide
theorem witness_TrackerIsHeldBack :
    moving.valid = true ∧ 0 < moving.cfg.nAx ∧ moving.pending 0 = false ∧
      State.valid { arriving with ie := false } = true ∧ State.ie { arriving with ie := false } = false := by decide
theorem witness_TrackerStepsCommute :
    (arriving.setPending 2 true).valid = true ∧ 0 < arriving.cfg.nAx ∧ 2 < arriving.cfg.nAx ∧ 0 ≠ 2 ∧
      (arriving.setPending 2 true).pending 0 = true ∧ (arriving.setPending 2 true).pending 2 = true ∧
        (arriving.setPending 2 true).ie = true := by decide
/-- The whole leg and a part of it. -/
theorem witness_LegEndsAfterItsDistance :
    moving.Inv ∧ 0 < moving.cfg.nAx ∧ moving.running 0 = true ∧ moving.pending 0 = false ∧ moving.ie = true ∧
      ((moving.axis 0).target.toInt - (moving.axis 0).pos.toInt).natAbs = 200 ∧ 199 ≤ 200 ∧ 200 ≤ 200 := by decide
/-- Each of the four choices, and a dispatch in progress. -/
theorem witness_AcceptTakesTheRecord :
    (State.valid { updating with cmdPort := some recordP1 } = true ∧ updating.fgPc ≠ .idle) ∧
    (withRecord recordP1).valid = true ∧ (withRecord recordP1).fgPc = .idle ∧
      (withRecord recordP1).cmdPort = some recordP1 ∧ recordP1.length = 2 + 4 * moving.cfg.nAx ∧
        recordP1[0]? = some moving.cfg.opSet ∧ moving.cfg.opSet ≠ moving.cfg.opReset ∧
          moving.cfg.opSet ≠ moving.cfg.opBoot ∧ (withRecord (0xC8#8 :: recordP1.tail)).valid = true ∧
            (0xC8#8 :: recordP1.tail)[0]? = some moving.cfg.opReset ∧ (0xC9#8 :: recordP1.tail)[0]? = some moving.cfg.opBoot ∧
              (0x63#8 :: recordP1.tail)[0]? = some 99#8 := by decide
theorem witness_AcceptWaitsOrRefuses :
    moving.valid = true ∧ moving.cmdPort = none ∧ (updating.valid = true ∧ updating.fgPc ≠ .idle) ∧
      (withRecord [0x02#8]).valid = true ∧ (withRecord [0x02#8]).fgPc = .idle ∧
        [0x02#8].length ≠ 2 + 4 * (withRecord [0x02#8]).cfg.nAx := by decide
/-- Phases other than the step's own, a clean axis in its phase, a dirty one in another. -/
theorem witness_DisabledForegroundStepsChangeNothing :
    (moving.valid = true ∧ moving.fgPc ≠ .batch ∧ moving.fgPc ≠ .clr ∧ moving.fgPc ≠ .snap ∧ moving.fgPc ≠ .upd 0) ∧
      ((moving.setPhase (.upd 2)).valid = true ∧ ((moving.setPhase (.upd 2)).axis 2).dirty = false ∧
        (moving.setPhase (.upd 2)).fgPc ≠ .idle) := by decide
theorem witness_CommandsOfAnotherLengthAreRefused :
    moving.valid = true ∧ moving.fgPc = .idle ∧ payloadShort.slots.length ≠ moving.cfg.nAx ∧
      Instr.setState payloadShort ∈ [Instr.getState payloadShort, .setState payloadShort] := by decide
theorem witness_AcceptRunsTheDecodedCommand :
    (withRecord recordP1).valid = true ∧ (withRecord recordP1).fgPc = .idle ∧
      (withRecord recordP1).fetched = some (.setState ⟨0x01#8, [⟨10000#16, 1200#16⟩, ⟨0#16, 0#16⟩, ⟨0#16, 0#16⟩]⟩) := by decide
theorem witness_StepRunsTheDecodedCommand :
    (State.valid { withRecord recordP1 with inputs := [.foreground] } = true ∧
      State.fetched { withRecord recordP1 with inputs := [.foreground] } =
        some (.setState ⟨0x01#8, [⟨10000#16, 1200#16⟩, ⟨0#16, 0#16⟩, ⟨0#16, 0#16⟩]⟩)) ∧
    State.reset.valid = true ∧
      decode State.reset.cfg (tableBytes State.reset.cfg.cmdLen 8 0x01) =
        .ok (.getState ⟨0#8, [⟨0#16, 0#16⟩, ⟨0#16, 0#16⟩, ⟨0#16, 0#16⟩]⟩) := by decide
/-- A turn of each kind, a record presented on a free and on an occupied port among them; with no input left, a tracker
and then the foreground. -/
theorem witness_StepTakesTheTurnOfItsInput :
    (withInputs [.foreground]).valid = true ∧ (withInputs [.overflow 0 true]).valid = true ∧
      (withInputs [.tracker 2]).valid = true ∧ (withInputs [.present recordP1]).valid = true ∧
          (withInputs [.present recordP1]).cmdPort = none ∧
          State.valid { withRecord recordP1 with inputs := [.present [0x01#8]] } = true ∧
          (withRecord recordP1).cmdPort = some recordP1 ∧
        State.valid { updating with inputs := [.foreground] } = true ∧ (updating.axis 0).dirty = true ∧
          arriving.valid = true ∧ arriving.inputs = [] ∧ trackEnabled 0 arriving = true ∧
            moving.inputs = [] ∧ (∀ i, i < moving.cfg.nAx → trackEnabled i moving = false) := by decide
/-- A dirty axis, a clean one, and the phase past the last. -/
theorem witness_UpdPhasesVisitEveryAxis :
    (State.valid { updating with inputs := [.foreground] } = true ∧ updating.fgPc = .upd 0 ∧ (updating.axis 0).dirty = true) ∧
      (State.valid { moving with inputs := [.foreground], fgPc := .upd 2 } = true ∧ (moving.axis 2).dirty = false) ∧
        State.valid { moving with inputs := [.foreground], fgPc := .upd 3 } = true ∧ 3 = moving.cfg.nAx := by decide
theorem witness_GetStateReportsEveryAxis :
    moving.valid = true ∧ moving.fgPc = .idle ∧ payloadEnds.fits moving.cfg = true ∧ 2 < moving.cfg.nAx := by decide
theorem witness_UnrecognizedReportsEveryAxis :
    moving.valid = true ∧ moving.fgPc = .idle ∧ payloadV35.fits moving.cfg = true ∧ moving.cfg.recognises 99 = false := by
  decide
theorem witness_FilteredOpcodesBypassTheCore :
    moving.valid = true ∧ moving.fgPc = .idle ∧ payloadEnds.fits moving.cfg = true := by decide
theorem witness_SetStateStartsTheBatch :
    moving.valid = true ∧ moving.fgPc = .idle ∧ payloadEnds.fits moving.cfg = true := by decide
/-- P1's record selects axis 0 above its position and leaves axes 1 and 2; V38 lies below it; V34 is at it. -/
theorem witness_BatchAppliesTheCommand :
    (batching recordP1).valid = true ∧ (batching recordP1).fgPc = .batch ∧
      ((batching recordP1).cmd.read 1).getLsbD 0 = true ∧ ((batching recordP1).cmd.read 1).getLsbD 2 = false ∧
        (moving.axis 0).pos.toInt < ((batching recordP1).cmd.read16 4).toInt ∧
          ((batching [0x02, 0x01]).valid = true ∧ ((batching [0x02, 0x01]).cmd.read16 4).toInt < (moving.axis 0).pos.toInt) ∧
            ((batching [0x02, 0x01, 0, 0, 0xE8, 0x03]).valid = true ∧
              ((batching [0x02, 0x01, 0, 0, 0xE8, 0x03]).cmd.read16 4).toInt = (moving.axis 0).pos.toInt) := by decide
/-- Two commands that differ in the mask bits above the axes and in the slot of an unselected axis. -/
theorem witness_UnselectedSlotsHaveNoInfluence :
    ∃ s t s' t' : State, s'.cfg = s.cfg ∧ s'.ax = s.ax ∧ s.fgPc = .batch ∧ s'.fgPc = .batch ∧ s.cmd ≠ s'.cmd ∧
      (∀ k, k < s.cfg.nAx → (s'.cmd.read 1).getLsbD k = (s.cmd.read 1).getLsbD k ∧
        ((s.cmd.read 1).getLsbD k = true →
          s'.cmd.read16 (2 + 4 * k) = s.cmd.read16 (2 + 4 * k) ∧ s'.cmd.read16 (4 + 4 * k) = s.cmd.read16 (4 + 4 * k))) ∧
      exec .batch s = .next t ∧ exec .batch s' = .next t' :=
  ⟨batching [0x02, 0x01, 0x10, 0x27, 0xB0, 0x04], _, batching [0x02, 0xF9, 0x10, 0x27, 0xB0, 0x04, 7], _,
    by decide, by decide, by decide, by decide, by decide, by decide,
    exec_batch_next.mpr ⟨by decide, .inl ⟨by decide, rfl⟩⟩, exec_batch_next.mpr ⟨by decide, .inl ⟨by decide, rfl⟩⟩⟩
/-- A start (V43) and a stop (V42). -/
theorem witness_UpdateAxisAppliesTheDerivation :
    (updating.valid = true ∧ 0 < updating.cfg.nAx ∧ updating.fgPc = .upd 0 ∧ (updating.axis 0).dirty = true ∧
      min (updating.axis 0).freq.toNat (updating.cfg.axis 0).fmax ≠ 0) ∧
    ((updating.setFreq 0 0).valid = true ∧ ((updating.setFreq 0 0).axis 0).dirty = true ∧
      min ((updating.setFreq 0 0).axis 0).freq.toNat (updating.cfg.axis 0).fmax = 0) := by decide
/-- A start (V43) and a stop (V42). -/
theorem witness_UpdateAxisWritesInOrder :
    (updating.valid = true ∧ 0 < updating.cfg.nAx ∧ updating.fgPc = .upd 0 ∧ (updating.axis 0).dirty = true ∧
      0 = updating.cfg.chan 0 ∧ 61 = min (updating.axis 0).freq.toNat (updating.cfg.axis 0).fmax ∧
        0x18#8 = (updating.channel 0).ctl &&& ~~~(updating.cfg.channel 0).csMask) ∧
    ((updating.setFreq 0 0).valid = true ∧ (updating.setFreq 0 0).fgPc = .upd 0 ∧
      ((updating.setFreq 0 0).axis 0).dirty = true ∧
        0 = min ((updating.setFreq 0 0).axis 0).freq.toNat (updating.cfg.axis 0).fmax) := by decide
/-- A tracker step onto the target (V27), and one that misses it. -/
theorem witness_ChannelAndStopWritesInOrder :
    (arriving.valid = true ∧ 2 < arriving.cfg.nAx ∧ arriving.pending 0 = true ∧ arriving.ie = true ∧
      after (exec (.track 0) arriving) (fun t => decide ((t.axis 0).pos = (t.axis 0).target)) = some true) ∧
    ((moving.setPending 0 true).valid = true ∧ (moving.setPending 0 true).pending 0 = true ∧ moving.ie = true ∧
      after (exec (.track 0) (moving.setPending 0 true)) (fun t => decide ((t.axis 0).pos ≠ (t.axis 0).target)) =
        some true) := by decide
/-- The update of V43, and a turn that is no reset. -/
theorem witness_StepShowsItsOutputWrites :
    step { updating with inputs := [.foreground] } = .next ((updateAxis 0 updating).setPhase (.upd 1)) ∧
      ({ updating with inputs := [.foreground] } : State).inputs.head? ≠ some .rst :=
  ⟨(step_foreground (rest := []) (by decide) rfl).trans
      ((updTurn_dirty (s := updating) (k := 0) (by decide) (by decide)).trans
        (exec_updateAxis_next.mpr ⟨by decide, by decide, .inl ⟨by decide, rfl⟩⟩)), by decide⟩
theorem witness_ClrMaskZeroesTheMask :
    ((batching recordP1).setPhase .clr).valid = true ∧ ((batching recordP1).setPhase .clr).fgPc = .clr := by decide
theorem witness_SnapshotWritesTheStatusRecord :
    ((batching recordP1).setPhase .snap).valid = true ∧ ((batching recordP1).setPhase .snap).fgPc = .snap ∧
      2 < (batching recordP1).cfg.nAx := by decide
/-- Axis 2 of the launch state stands at its target. -/
theorem witness_StatusNeverShowsMotionAtTheTarget :
    (moving.setPhase .snap).Inv ∧ (moving.setPhase .snap).fgPc = .snap ∧ 2 < moving.cfg.nAx ∧
      exec .snapshot (moving.setPhase .snap) = .next (snapshotAll (moving.setPhase .snap)) ∧
        (snapshotAll (moving.setPhase .snap)).status.read16 (3 + 4 * 2) = (moving.axis 2).target :=
  ⟨by decide, by decide, by decide, exec_snapshot_next.mpr ⟨by decide, .inl ⟨by decide, rfl⟩⟩, by decide⟩
theorem witness_SetStateDispatchCompletes :
    (withRecord recordP1).Inv ∧ (withRecord recordP1).fgPc = .idle ∧ (withRecord recordP1).cmdPort = some recordP1 ∧
      recordP1.length = 2 + 4 * (withRecord recordP1).cfg.nAx ∧ recordP1[0]? = some (withRecord recordP1).cfg.opSet ∧
        (recordP1.getD 1 0#8).getLsbD 0 = true ∧ (recordP1.getD 1 0#8).getLsbD 2 = false := by decide
theorem witness_OtherDispatchesTakeTwoTurnsOrOne :
    (withRecord (0x01#8 :: recordP1.tail)).valid = true ∧ (0x01#8 :: recordP1.tail).length = 2 + 4 * moving.cfg.nAx ∧
      0x01#8 ≠ moving.cfg.opSet ∧ 0x01#8 ≠ moving.cfg.opReset ∧ 0x01#8 ≠ moving.cfg.opBoot ∧
        (withRecord (0xC8#8 :: recordP1.tail)).valid = true ∧ 0xC8#8 = moving.cfg.opReset := by decide
theorem witness_EveryWellFormedOperationCompletes :
    (withRecord recordP1).valid = true ∧ Instr.accept.wellFormed moving.cfg = true ∧
      (withRecord recordP1).cmdPort = some recordP1 ∧ recordP1.length = 2 + 4 * (withRecord recordP1).cfg.nAx := by decide
theorem witness_EveryOperationKeepsTheStateValid : exec (.track 0) arriving = .next (trackAxis 0 arriving) :=
  exec_track_next.mpr ⟨by decide, by decide, .inl ⟨by decide, rfl⟩⟩
/-- A tracker step in the middle of a dispatch, its axis still to be updated. -/
theorem witness_EveryStepKeepsTheInvariant :
    State.Inv { updating.setPending 0 true with inputs := [.tracker 0] } ∧
      step { updating.setPending 0 true with inputs := [.tracker 0] } = .next (trackAxis 0 (updating.setPending 0 true)) :=
  ⟨by decide, (step_tracker (rest := []) rfl).trans (exec_track_next.mpr ⟨by decide, by decide, .inl ⟨by decide, rfl⟩⟩)⟩
theorem witness_AxisRegistersHaveTheirWriters :
    exec (.track 0) arriving = .next (trackAxis 0 arriving) ∧
      ((trackAxis 0 arriving).axis 0).pos ≠ (arriving.axis 0).pos ∧
        ((trackAxis 0 arriving).axis 0).freq ≠ (arriving.axis 0).freq :=
  ⟨exec_track_next.mpr ⟨by decide, by decide, .inl ⟨by decide, rfl⟩⟩, by decide, by decide⟩
theorem witness_OnlyTheTrackerClearsTheLatch :
    exec (.track 0) arriving = .next (trackAxis 0 arriving) ∧ arriving.pending 0 = true ∧
      (trackAxis 0 arriving).pending 0 = false ∧ (arriving.setOverrun 0).overran 0 = true :=
  ⟨exec_track_next.mpr ⟨by decide, by decide, .inl ⟨by decide, rfl⟩⟩, by decide, by decide, by decide⟩
theorem witness_InterruptEnableIsRestoredByEveryStep :
    step (withInputs [.tracker 2]) = .next moving :=
  (step_tracker (rest := []) rfl).trans (exec_track_next.mpr ⟨by decide, by decide, .inr ⟨by decide, by decide⟩⟩)

end Sys2Proof.Tests
end

/-! PROOFS. The statements of 00_scope.md: what runs at all (R9, R202), the records (R14, R63), the check of WF7 (R9), and
what every operation and every step keeps (R20, R30, R31, R40, R60, R73). -/

namespace Sys2Proof.Machine

/-! ## Every operation keeps the state valid (R9, R20, R30, R31, R40, R60) -/

section KeepsValid

variable {s t : State}

/-- UPDATE_AXIS moves on to a phase that exists, since its axis does (R40, R155). -/
theorem updateAxis_setPhase_valid (h : s.valid = true) {i : Nat} (hi : i < s.cfg.nAx) :
    ((updateAxis i s).setPhase (.upd (i + 1))).valid = true := by
  refine State.setPhase_valid (updateAxis_valid h i) ?_
  simpa [State.phaseFits] using hi

/-- An operation with a next state ran in a valid state, and leaves a valid state under the same configuration. -/
theorem exec_keeps_valid {i : Instr} (h : exec i s = .next t) : s.valid = true ∧ t.valid = true ∧ t.cfg = s.cfg := by
  cases i with
  | getState p =>
    obtain ⟨hv, ⟨-, hl, rfl⟩ | ⟨-, rfl⟩⟩ := exec_getState_next.mp h
    · exact ⟨hv, latchRecord_valid hv hl (.inl rfl), rfl⟩
    · exact ⟨hv, hv, rfl⟩
  | setState p =>
    obtain ⟨hv, ⟨-, hl, rfl⟩ | ⟨-, rfl⟩⟩ := exec_setState_next.mp h
    · exact ⟨hv, latchRecord_valid hv hl (.inr rfl), rfl⟩
    · exact ⟨hv, hv, rfl⟩
  | resetReq p =>
    obtain ⟨hv, ⟨-, -, rfl⟩ | ⟨-, rfl⟩⟩ := exec_resetReq_next.mp h
    · exact ⟨hv, requestReset_valid hv, rfl⟩
    · exact ⟨hv, hv, rfl⟩
  | bootReq p =>
    obtain ⟨hv, ⟨-, -, rfl⟩ | ⟨-, rfl⟩⟩ := exec_bootReq_next.mp h
    · exact ⟨hv, requestBoot_valid hv, rfl⟩
    · exact ⟨hv, hv, rfl⟩
  | unrecognized op p =>
    obtain ⟨hv, ⟨-, hl, rfl⟩ | ⟨-, rfl⟩⟩ := exec_unrecognized_next.mp h
    · exact ⟨hv, latchRecord_valid hv hl (.inl rfl), rfl⟩
    · exact ⟨hv, hv, rfl⟩
  | accept =>
    obtain ⟨hv, ⟨bytes, -, -, hl, rfl⟩ | ⟨-, rfl⟩⟩ := exec_accept_next.mp h
    · exact ⟨hv, acceptRecord_valid hv hl, acceptRecord_cfg bytes⟩
    · exact ⟨hv, hv, rfl⟩
  | batch =>
    obtain ⟨hv, ⟨-, rfl⟩ | ⟨-, rfl⟩⟩ := exec_batch_next.mp h
    · exact ⟨hv, batchAll_valid hv, by rw [batchAll_frame]⟩
    · exact ⟨hv, hv, rfl⟩
  | updateAxis k =>
    obtain ⟨hv, hk, ⟨-, rfl⟩ | ⟨-, rfl⟩⟩ := exec_updateAxis_next.mp h
    · exact ⟨hv, updateAxis_setPhase_valid hv hk, (setPhase_cfg _ _).trans (updateAxis_cfg k)⟩
    · exact ⟨hv, hv, rfl⟩
  | clrMask =>
    obtain ⟨hv, ⟨-, rfl⟩ | ⟨-, rfl⟩⟩ := exec_clrMask_next.mp h
    · exact ⟨hv, clearMask_valid hv, rfl⟩
    · exact ⟨hv, hv, rfl⟩
  | snapshot =>
    obtain ⟨hv, ⟨-, rfl⟩ | ⟨-, rfl⟩⟩ := exec_snapshot_next.mp h
    · exact ⟨hv, snapshotAll_valid hv, by rw [snapshotAll_frame]⟩
    · exact ⟨hv, hv, rfl⟩
  | derive c f =>
    obtain ⟨hv, -, rfl⟩ := exec_derive_next.mp h
    exact ⟨hv, deriveChannel_valid hv c _, deriveChannel_cfg c _ s⟩
  | enable c =>
    obtain ⟨hv, -, rfl⟩ := exec_enable_next.mp h
    exact ⟨hv, enableChannel_valid hv c, rfl⟩
  | disable c =>
    obtain ⟨hv, -, rfl⟩ := exec_disable_next.mp h
    exact ⟨hv, disableChannel_valid hv c, rfl⟩
  | guardEnter =>
    obtain ⟨hv, rfl⟩ := exec_guardEnter_next.mp h
    exact ⟨hv, guardEnter_valid hv, rfl⟩
  | guardExit =>
    obtain ⟨hv, rfl⟩ := exec_guardExit_next.mp h
    exact ⟨hv, guardExit_valid hv, rfl⟩
  | ovf c g =>
    obtain ⟨hv, -, ⟨-, rfl⟩ | ⟨-, rfl⟩⟩ := exec_ovf_next.mp h
    · exact ⟨hv, overflowEvent_valid hv c g, overflowEvent_cfg c g⟩
    · exact ⟨hv, hv, rfl⟩
  | track k =>
    obtain ⟨hv, -, ⟨-, rfl⟩ | ⟨-, rfl⟩⟩ := exec_track_next.mp h
    · obtain ⟨-, hcfg, -⟩ := trackAxis_parts k s
      exact ⟨hv, trackAxis_valid hv k, hcfg⟩
    · exact ⟨hv, hv, rfl⟩

end KeepsValid

/-- Settles O52: every operation, by the inversion lemma of its constructor. -/
theorem everyOperationKeepsTheStateValid : Obligations.EveryOperationKeepsTheStateValid := by
  unfold Obligations.EveryOperationKeepsTheStateValid
  exact fun _ _ _ h => exec_keeps_valid h

/-! ## A configuration that is not accepted has no machine (R9, R202) -/

section Refused

variable {s : State}

/-- The first check of an operation refuses a configuration that is not accepted. -/
theorem whenValid_of_not_accepted (h : s.cfg.accepted = false) (r : Result) :
    whenValid s r = .refused .configNotWellFormed := by
  simp [whenValid, h]

/-- Every operation starts with the check of its state. -/
theorem exec_eq_whenValid (i : Instr) (s : State) : ∃ r, exec i s = whenValid s r := by
  cases i <;> exact ⟨_, rfl⟩

theorem exec_of_not_accepted (h : s.cfg.accepted = false) (i : Instr) : exec i s = .refused .configNotWellFormed := by
  obtain ⟨r, e⟩ := exec_eq_whenValid i s
  rw [e, whenValid_of_not_accepted h]

theorem foregroundTurn_of_not_accepted (h : s.cfg.accepted = false) :
    foregroundTurn s = .refused .configNotWellFormed :=
  whenValid_of_not_accepted h _

theorem inputTurn_of_not_accepted (h : s.cfg.accepted = false) (inp : Input) :
    inputTurn inp s = .refused .configNotWellFormed := by
  cases inp with
  | present bytes => exact whenValid_of_not_accepted h _
  | overflow c g => exact exec_of_not_accepted (s := s.startTurn) h (.ovf c g)
  | tracker i => exact exec_of_not_accepted (s := s.startTurn) h (.track i)
  | foreground => exact foregroundTurn_of_not_accepted h
  | rst => exact whenValid_of_not_accepted h _
  | boot => exact whenValid_of_not_accepted h _

theorem defaultTurn_of_not_accepted (h : s.cfg.accepted = false) :
    defaultTurn s = .refused .configNotWellFormed := by
  unfold defaultTurn
  split
  · exact exec_of_not_accepted (s := s.startTurn) h _
  · exact foregroundTurn_of_not_accepted h

theorem step_of_not_accepted (h : s.cfg.accepted = false) : step s = .refused .configNotWellFormed := by
  unfold step
  split
  · exact defaultTurn_of_not_accepted h
  · next inp rest _ => exact inputTurn_of_not_accepted (s := { s with inputs := rest }) h inp

end Refused

/-- Settles O5: the check of the configuration comes first in every turn and every operation. -/
theorem refusedConfigurationNeverRuns : Obligations.RefusedConfigurationNeverRuns := by
  unfold Obligations.RefusedConfigurationNeverRuns
  exact fun _ h => ⟨step_of_not_accepted h, exec_of_not_accepted h⟩

/-! ## Record stores and reads (R14, R63) -/

/-- A 2-byte store reads back. -/
theorem Memory.read16_write16 {m : Memory} (hm : m.wf = true) (off : Nat) (v : Word16) :
    (m.write16 off v).read16 off = v :=
  read16_of_bytes (by simp [Memory.read_write16 hm]) (by simp [Memory.read_write16 hm])

/-- Settles O14: what a store does to every byte read, and the two bytes of a field as numbers. -/
theorem recordStoresReadBack : Obligations.RecordStoresReadBack := by
  unfold Obligations.RecordStoresReadBack
  intro m off b v hm
  refine ⟨Memory.read_write_self hm off b, fun a ha => Memory.read_write_ne hm b ha, Memory.write_wf hm off b,
    Memory.read16_write16 hm off v, ?low, ?high, fun a h0 h1 => ?other, Memory.write16_wf hm off v, word16_toNat _ _⟩
  case low => rw [Memory.read_write16 hm, if_pos rfl, lowByte_toNat]
  case high => rw [Memory.read_write16 hm, if_neg (Nat.succ_ne_self off), if_pos rfl, highByte_toNat]
  case other => rw [Memory.read_write16 hm, if_neg h0, if_neg h1]

/-! ## The critical frequencies decide WF7 (R9, R104, R106, R108) -/

end Sys2Proof.Machine

namespace Sys2Proof

/-- What WF3 and WF4 ask of a channel for the derivation to be defined (R9). -/
structure ChannelCfg.Derivable (ch : ChannelCfg) : Prop where
  nonempty : ch.ratios ≠ []
  ascending : ch.ratios.Pairwise (· < ·)
  ratio_pos : ∀ p ∈ ch.ratios, 1 ≤ p
  scale_pos : 1 ≤ ch.scale

/-- WF2 to WF4 make the derivation defined on every channel an axis is bound to. -/
theorem Cfg.channel_derivable {cfg : Cfg} (h2 : cfg.wf2 = true) (h3 : cfg.wf3 = true) (h4 : cfg.wf4 = true)
    {a : AxisCfg} (ha : a ∈ cfg.axes) : (cfg.channel a.chan).Derivable := by
  obtain ⟨-, hlen, hchan, -⟩ := Cfg.wf2_iff.mp h2
  have hmem := Cfg.channel_mem hlen (hchan a ha)
  simp only [Cfg.wf3, List.all_eq_true, Bool.and_eq_true, decide_eq_true_eq] at h3
  simp only [Cfg.wf4, List.all_eq_true, Bool.and_eq_true, decide_eq_true_eq] at h4
  obtain ⟨⟨hne, hasc⟩, hpos⟩ := h3 _ hmem
  exact ⟨hne, hasc, hpos, (h4.2 _ hmem).1⟩

theorem ChannelCfg.Derivable.ratioAt_pos {ch : ChannelCfg} (hd : ch.Derivable) {k : Nat} (hk : k < ch.ratios.length) :
    1 ≤ Machine.ratioAt ch k :=
  hd.ratio_pos _ (Machine.ratioAt_mem hk)

end Sys2Proof

namespace Sys2Proof.Machine

theorem frequencyFits_iff {fClk : Nat} {ch : ChannelCfg} {f : Nat} :
    frequencyFits fClk ch f = true ↔ 1 ≤ deriveTop fClk ch f ∧ deriveAchieved fClk ch f ≤ 65535 := by
  simp [frequencyFits]

section Critical

variable {fClk : Nat} {ch : ChannelCfg} (hd : ch.Derivable)
include hd

/-- At one index the reload value does not increase with the frequency (R108). -/
theorem reloadAt_anti {f g k : Nat} (hk : k < ch.ratios.length) (hf : 1 ≤ f) (hfg : f ≤ g) :
    reloadAt fClk ch g k ≤ reloadAt fClk ch f k := by
  have hp := hd.ratioAt_pos hk
  rw [reloadAt_eq fClk hd.scale_pos (hf.trans hfg) hp, reloadAt_eq fClk hd.scale_pos hf hp]
  exact Nat.div_le_div_left (by gcongr) (Nat.mul_pos (Nat.mul_pos hd.scale_pos hf) hp)

/-- At one frequency the reload value does not increase with the index, since the ratios ascend (R103). -/
theorem reloadAt_anti_index {f j k : Nat} (hjk : j ≤ k) (hk : k < ch.ratios.length) (hf : 1 ≤ f) :
    reloadAt fClk ch f k ≤ reloadAt fClk ch f j := by
  have hj : j < ch.ratios.length := hjk.trans_lt hk
  have hle : ratioAt ch j ≤ ratioAt ch k := by
    obtain rfl | hlt := hjk.eq_or_lt
    · exact le_rfl
    · exact (ratioAt_lt hd.ascending hlt hk).le
  rw [reloadAt_eq fClk hd.scale_pos hf (hd.ratioAt_pos hk), reloadAt_eq fClk hd.scale_pos hf (hd.ratioAt_pos hj)]
  exact Nat.div_le_div_left (by gcongr)
    (Nat.mul_pos (Nat.mul_pos hd.scale_pos hf) (hd.ratioAt_pos hj))

/-- The frequencies whose reload value does not fit at an index are those up to that index's critical one. -/
theorem cmax_lt_reloadAt_iff {f k : Nat} (hk : k < ch.ratios.length) (hf : 1 ≤ f) :
    ch.cmax < reloadAt fClk ch f k ↔ f ≤ fClk / (ch.scale * (ch.cmax + 1) * ratioAt ch k) := by
  have hp := hd.ratioAt_pos hk
  have hs := hd.scale_pos
  rw [reloadAt_eq fClk hs hf hp, ← Nat.succ_le_iff, Nat.le_div_iff_mul_le (by positivity),
    Nat.le_div_iff_mul_le (by positivity), Nat.succ_eq_add_one,
    show (ch.cmax + 1) * (ch.scale * f * ratioAt ch k) = f * (ch.scale * (ch.cmax + 1) * ratioAt ch k) by ring]

/-- Above a frequency and up to the critical one of the index before, the search still stops at the same index. -/
theorem derivePsc_eq_of_le {f g : Nat} (hf : 1 ≤ f) (hfg : f ≤ g)
    (hskip : ∀ j, j + 1 = derivePsc fClk ch f → ch.cmax < reloadAt fClk ch g j) :
    derivePsc fClk ch g = derivePsc fClk ch f := by
  obtain ⟨hk, -, hfit⟩ := derivePsc_spec fClk ch f hd.nonempty
  refine derivePsc_unique fClk ch g _ hk (fun j hj => ?_) ?_
  · obtain ⟨j', hj'⟩ : ∃ j', j' + 1 = derivePsc fClk ch f := ⟨derivePsc fClk ch f - 1, by omega⟩
    exact (hskip j' hj').trans_le (reloadAt_anti_index hd (by omega) (by omega) (hf.trans hfg))
  · exact hfit.imp_left (reloadAt_anti hd hk hf hfg).trans

/-- Every frequency has a critical one at or above it, with the same index: the bound itself at index 0, and the critical
frequency of the index before at any other. -/
theorem exists_critical_same_index {f fmax : Nat} (hf : 1 ≤ f) (hfm : f ≤ fmax) :
    ∃ g ∈ criticalFrequencies fClk ch fmax, f ≤ g ∧ derivePsc fClk ch g = derivePsc fClk ch f := by
  obtain ⟨hk, hskip, -⟩ := derivePsc_spec fClk ch f hd.nonempty
  cases hpsc : derivePsc fClk ch f with
  | zero =>
    refine ⟨fmax, by simp [criticalFrequencies], hfm, hpsc ▸ derivePsc_eq_of_le hd hf hfm fun j hj => ?_⟩
    omega
  | succ k =>
    have hk' : k < ch.ratios.length := by omega
    have hle := (cmax_lt_reloadAt_iff hd hk' hf).mp (hskip k (by omega))
    have hg : f ≤ min fmax (fClk / (ch.scale * (ch.cmax + 1) * ratioAt ch k)) := le_min hfm hle
    refine ⟨_, ?_, hg, hpsc ▸ derivePsc_eq_of_le hd hf hg fun j hj => ?_⟩
    · exact List.mem_cons_of_mem _ (List.mem_map_of_mem (ratioAt_mem hk'))
    · obtain rfl : j = k := by omega
      exact (cmax_lt_reloadAt_iff hd hk' (hf.trans hg)).mpr (min_le_right _ _)

/-- Where a frequency fits, a smaller one with the same index fits: its reload value is not smaller (R108), so its
achieved frequency is not larger (R106). -/
theorem frequencyFits_of_same_index {f g : Nat} (hf : 1 ≤ f) (hfg : f ≤ g)
    (hpsc : derivePsc fClk ch g = derivePsc fClk ch f) (hg : frequencyFits fClk ch g = true) :
    frequencyFits fClk ch f = true := by
  obtain ⟨htop, hach⟩ := frequencyFits_iff.mp hg
  have hk := (derivePsc_spec fClk ch f hd.nonempty).1
  have hp := hd.ratioAt_pos hk
  have hs := hd.scale_pos
  have hle : deriveTop fClk ch g ≤ deriveTop fClk ch f := by
    rw [deriveTop, deriveTop, hpsc]
    exact min_le_min_right _ (reloadAt_anti hd hk hf hfg)
  have hone := htop.trans hle
  refine frequencyFits_iff.mpr ⟨hone, le_trans ?_ hach⟩
  rw [deriveAchieved, deriveAchieved, hpsc, divFloor_eq (by positivity), divFloor_eq (by positivity)]
  exact Nat.div_le_div_left (by gcongr) (by positivity)

/-- WF7 on the critical frequencies is WF7 on every frequency up to the bound. -/
theorem rangeFits_iff {fmax : Nat} :
    rangeFits fClk ch fmax = true ↔ ∀ f, 1 ≤ f → f ≤ fmax → frequencyFits fClk ch f = true := by
  simp only [rangeFits, List.all_eq_true, Bool.or_eq_true, beq_iff_eq]
  constructor
  · intro h f hf hfm
    obtain ⟨g, hmem, hfg, hpsc⟩ := exists_critical_same_index hd hf hfm
    exact frequencyFits_of_same_index hd hf hfg hpsc ((h g hmem).resolve_left (by omega))
  · intro h g hmem
    have hle : g ≤ fmax := by
      obtain rfl | hmem := List.mem_cons.mp hmem
      · exact le_rfl
      · obtain ⟨p, -, rfl⟩ := List.mem_map.mp hmem
        exact min_le_left _ _
    obtain hg | hg := Nat.eq_zero_or_pos g
    · exact .inl hg
    · exact .inr (h g hg hle)

end Critical

/-- Settles O7: axis by axis, the critical frequency at or above a request decides for it. -/
theorem frequencyRangeCheckIsExact : Obligations.FrequencyRangeCheckIsExact := by
  unfold Obligations.FrequencyRangeCheckIsExact
  intro cfg h2 h3 h4
  simp only [Cfg.wf7, List.all_eq_true, Cfg.EveryFrequencyFits, ← frequencyFits_iff]
  exact forall₂_congr fun a ha => rangeFits_iff (Cfg.channel_derivable h2 h3 h4 ha)

/-! ## A step shows its output writes (R73) -/

/-- A channel record without its on flag, which the outside does not see (R33, R206). -/
def ChannelRegs.seen (r : ChannelRegs) : ChannelRegs := { r with isOn := false }

/-- Two states hold the same data in every register the outside sees. -/
def State.LooksLike (s t : State) : Prop :=
  s.ch.map ChannelRegs.seen = t.ch.map ChannelRegs.seen ∧ s.dirline = t.dirline

/-- The output writes listed in `t`, applied in their order to `s`, give the registers of `t` that the outside sees. -/
def State.ShowsWrites (s t : State) : Prop := (t.outputs.foldl State.apply s).LooksLike t

section Shows

variable {s t u : State}

theorem State.LooksLike.seen_channel (h : s.LooksLike t) (c : Nat) :
    (s.channel c).seen = (t.channel c).seen := by
  have hget : ∀ v : State, (v.channel c).seen = (v.ch.map ChannelRegs.seen).getD c ChannelRegs.absent := fun v => by
    rw [show ChannelRegs.absent = ChannelRegs.absent.seen from rfl, List.getD_map]
    rfl
  rw [hget, hget, h.1]

theorem State.LooksLike.sameOutputs (h : s.LooksLike t) : s.SameOutputs t := by
  refine ⟨fun c => ?_, fun i => ?_⟩
  · have hc := h.seen_channel c
    simp only [ChannelRegs.seen, ChannelRegs.mk.injEq] at hc
    obtain ⟨hpsc, htop, -, hctl⟩ := hc
    exact ⟨hctl, hpsc, htop⟩
  · simp only [State.line, h.2]

theorem State.LooksLike.trans (h : s.LooksLike t) (h' : t.LooksLike u) : s.LooksLike u :=
  ⟨h.1.trans h'.1, h.2.trans h'.2⟩

/-- States that look alike still do when both store alike in a channel. -/
theorem State.LooksLike.setChannel (h : s.LooksLike t) (c : Nat) {r r' : ChannelRegs} (hr : r.seen = r'.seen) :
    (s.setChannel c r).LooksLike (t.setChannel c r') := by
  refine ⟨?_, h.2⟩
  rw [setChannel_ch, setChannel_ch, List.map_set, List.map_set, h.1, hr]

/-- What an output write does to the registers seen depends on those alone. -/
theorem State.LooksLike.apply (h : s.LooksLike t) (w : OutputWrite) : (s.apply w).LooksLike (t.apply w) := by
  cases w with
  | ctl c b => exact h.setChannel c (congrArg (fun r : ChannelRegs => { r with ctl := b }) (h.seen_channel c))
  | psc c k => exact h.setChannel c (congrArg (fun r : ChannelRegs => { r with psc := k }) (h.seen_channel c))
  | top c v => exact h.setChannel c (congrArg (fun r : ChannelRegs => { r with top := v }) (h.seen_channel c))
  | line i b => exact ⟨h.1, congrArg (List.set · i b) h.2⟩

theorem State.looksLike_setOn (s : State) (c : Nat) (b : Bool) : s.LooksLike (s.setOn c b) := by
  have h : s.LooksLike s := ⟨rfl, rfl⟩
  have h' := h.setChannel c (r := s.channel c) (r' := { s.channel c with isOn := b }) rfl
  rwa [setChannel_channel] at h'

/-! Each write the outside sees is listed, so a run of writes shows itself. -/

/-- An update that lists no write and moves no register seen. -/
theorem State.ShowsWrites.keep (h : s.ShowsWrites t) (ho : u.outputs = t.outputs) (hl : t.LooksLike u) :
    s.ShowsWrites u := by
  rw [State.ShowsWrites, ho]
  exact State.LooksLike.trans h hl

/-- An update that leaves the list, the channel table and the lines. -/
theorem State.ShowsWrites.frame (h : s.ShowsWrites t) (ho : u.outputs = t.outputs) (hc : u.ch = t.ch)
    (hd : u.dirline = t.dirline) : s.ShowsWrites u :=
  h.keep ho ⟨by rw [hc], hd.symm⟩

theorem State.ShowsWrites.output (h : s.ShowsWrites t) (w : OutputWrite) : s.ShowsWrites (t.output w) := by
  have hw : (t.output w).outputs = t.outputs ++ [w] := rfl
  rw [State.ShowsWrites, hw, List.foldl_append]
  exact State.LooksLike.apply h w

theorem State.ShowsWrites.setOn (h : s.ShowsWrites t) (c : Nat) (b : Bool) : s.ShowsWrites (t.setOn c b) :=
  h.keep rfl (State.looksLike_setOn t c b)

theorem State.ShowsWrites.disableChannel (h : s.ShowsWrites t) (c : Nat) : s.ShowsWrites (disableChannel c t) :=
  (h.output _).setOn c false

theorem State.ShowsWrites.enableChannel (h : s.ShowsWrites t) (c : Nat) : s.ShowsWrites (enableChannel c t) :=
  (h.output _).setOn c true

theorem State.ShowsWrites.deriveChannel (h : s.ShowsWrites t) (c f : Nat) : s.ShowsWrites (deriveChannel c f t) := by
  unfold Machine.deriveChannel
  split
  · exact h.disableChannel c
  · exact ((h.disableChannel c).output _).output _

theorem State.ShowsWrites.startOrStop (h : s.ShowsWrites t) (i fa : Nat) : s.ShowsWrites (startOrStop i fa t) := by
  unfold Machine.startOrStop
  split
  · exact h.disableChannel _
  · exact (h.output _).enableChannel _

theorem State.ShowsWrites.setFreq (h : s.ShowsWrites t) (i : Nat) (f : Word16) : s.ShowsWrites (t.setFreq i f) :=
  h.frame rfl rfl rfl

theorem State.ShowsWrites.setPhase (h : s.ShowsWrites t) (ph : Phase) : s.ShowsWrites (t.setPhase ph) :=
  h.frame (setPhase_outputs t ph) (setPhase_ch t ph) (setPhase_dirline t ph)

theorem State.ShowsWrites.resyncAxis (h : s.ShowsWrites t) (i fin : Nat) : s.ShowsWrites (resyncAxis i fin t) :=
  (((h.deriveChannel _ fin).setFreq i _).startOrStop i _).frame (setDirty_outputs _ i false) (setDirty_ch _ i false)
    (setDirty_dirline _ i false)

theorem State.ShowsWrites.updateAxis (h : s.ShowsWrites t) (i : Nat) : s.ShowsWrites (updateAxis i t) := by
  have hg : s.ShowsWrites (Machine.guardEnter t) := h.frame rfl rfl rfl
  exact (hg.resyncAxis i _).frame (guardExit_outputs _) (guardExit_ch _) (guardExit_dirline _)

theorem State.ShowsWrites.trackAxis (h : s.ShowsWrites t) (i : Nat) : s.ShowsWrites (trackAxis i t) := by
  have hc : s.ShowsWrites (countStep i (enterTracker i t)) := h.frame rfl rfl rfl
  unfold Machine.trackAxis stopAtTarget
  split
  · exact ((hc.setFreq i 0#16).disableChannel _).output _
  · exact hc

theorem State.ShowsWrites.overflowEvent (h : s.ShowsWrites t) (c : Nat) (g : Bool) :
    s.ShowsWrites (overflowEvent c g t) := by
  unfold Machine.overflowEvent latchEvent
  split
  · split <;> exact h.frame rfl rfl rfl
  · exact h

/-- An operation of an agent shows its writes after those listed before it. -/
theorem State.ShowsWrites.exec {i : Instr} (hi : Instr.IsAgentStep i) (h : s.ShowsWrites t) (he : exec i t = .next u) :
    s.ShowsWrites u := by
  obtain rfl | rfl | ⟨k, rfl⟩ | rfl | rfl | ⟨c, g, rfl⟩ | ⟨k, rfl⟩ := hi
  · obtain ⟨-, ⟨bytes, -, -, -, rfl⟩ | ⟨-, rfl⟩⟩ := exec_accept_next.mp he
    · rw [acceptRecord_frame]
      exact h.frame rfl rfl rfl
    · exact h
  · obtain ⟨-, ⟨-, rfl⟩ | ⟨-, rfl⟩⟩ := exec_batch_next.mp he
    · rw [batchAll_frame]
      exact h.frame rfl rfl rfl
    · exact h
  · obtain ⟨-, -, ⟨-, rfl⟩ | ⟨-, rfl⟩⟩ := exec_updateAxis_next.mp he
    · exact (h.updateAxis k).setPhase _
    · exact h
  · obtain ⟨-, ⟨-, rfl⟩ | ⟨-, rfl⟩⟩ := exec_clrMask_next.mp he
    · exact h.frame rfl rfl rfl
    · exact h
  · obtain ⟨-, ⟨-, rfl⟩ | ⟨-, rfl⟩⟩ := exec_snapshot_next.mp he
    · rw [snapshotAll_frame]
      exact h.frame rfl rfl rfl
    · exact h
  · obtain ⟨-, -, ⟨-, rfl⟩ | ⟨-, rfl⟩⟩ := exec_ovf_next.mp he
    · exact h.overflowEvent c g
    · exact h
  · obtain ⟨-, -, ⟨-, rfl⟩ | ⟨-, rfl⟩⟩ := exec_track_next.mp he
    · exact h.trackAxis k
    · exact h

theorem State.showsWrites_turned (s : State) : s.ShowsWrites s.turned := ⟨rfl, rfl⟩

/-- Every step but `rst` shows its writes. -/
theorem step_showsWrites (h : step s = .next t) (hr : s.inputs.head? ≠ some .rst) : s.ShowsWrites t := by
  have h0 := State.showsWrites_turned s
  obtain ⟨-, ⟨i, hi, he⟩ | ⟨-, rfl⟩ | ⟨k, -, -, -, rfl⟩ | ⟨hrst, -⟩ | ⟨-, rfl⟩ | ⟨bytes, -, rfl⟩⟩ :=
    step_cases h
  · exact h0.exec hi he
  · exact h0.setPhase _
  · exact h0.setPhase _
  · exact absurd hrst hr
  · unfold bootStep
    split
    · exact h0.frame rfl rfl rfl
    · exact h0
  · unfold presentRecord
    split
    · exact h0.frame rfl rfl rfl
    · exact h0

/-! The list left by the step before is emptied before anything reads it. -/

theorem inputTurn_outputs_irrelevant (inp : Input) (s : State) (earlier : List OutputWrite) :
    inputTurn inp { s with outputs := earlier } = inputTurn inp s := by
  cases inp <;> rfl

theorem defaultTurn_outputs_irrelevant (s : State) (earlier : List OutputWrite) :
    defaultTurn { s with outputs := earlier } = defaultTurn s := rfl

/-- With no input left the default turn is taken (R187). -/
theorem step_of_no_input (hi : s.inputs = []) : step s = defaultTurn s := by
  unfold step
  rw [hi]

/-- The oldest input asks for the turn (R187). -/
theorem step_of_input {inp : Input} {rest : List Input} (hi : s.inputs = inp :: rest) :
    step s = inputTurn inp { s with inputs := rest } := by
  unfold step
  rw [hi]

theorem step_outputs_irrelevant (s : State) (earlier : List OutputWrite) :
    step { s with outputs := earlier } = step s := by
  by_cases hi : s.inputs = []
  · rw [step_of_no_input hi, step_of_no_input (s := { s with outputs := earlier }) hi]
    exact defaultTurn_outputs_irrelevant s earlier
  · obtain ⟨inp, rest, hi⟩ := List.exists_cons_of_ne_nil hi
    rw [step_of_input hi, step_of_input (s := { s with outputs := earlier }) hi]
    exact inputTurn_outputs_irrelevant inp { s with inputs := rest } earlier

end Shows

/-- Settles O59: the writes a turn lists are those it makes, and every turn starts from an empty list. -/
theorem stepShowsItsOutputWrites : Obligations.StepShowsItsOutputWrites := by
  unfold Obligations.StepShowsItsOutputWrites
  exact fun s t h =>
    ⟨fun hr => (step_showsWrites h hr).sameOutputs, fun earlier => (step_outputs_irrelevant s earlier).trans h⟩

end Sys2Proof.Machine

/-! PROOFS. The statements of 10_state.md: the reset and launch states (R46, R231, R235), who writes which register
(R21 to R26, R38, R211), what holds a tracker back (R35), and the invariant every step keeps (R28, R31 to R34). -/

namespace Sys2Proof

/-- WF7 for one request of an axis (R9). -/
theorem Cfg.request_fits {cfg : Cfg} (h : cfg.accepted = true) {i f : Nat} (hi : i < cfg.nAx) (hf : 1 ≤ f)
    (hfm : f ≤ (cfg.axis i).fmax) :
    1 ≤ Machine.deriveTop cfg.fClk (cfg.channel (cfg.chan i)) f ∧
      Machine.deriveAchieved cfg.fClk (cfg.channel (cfg.chan i)) f ≤ 65535 := by
  obtain ⟨-, h2, h3, h4, -, -, h7, -⟩ := Cfg.accepted_iff.mp h
  have hmem := Cfg.axis_mem (Cfg.axes_length h) hi
  have hr := List.all_eq_true.mp h7 _ hmem
  exact Machine.frequencyFits_iff.mp ((Machine.rangeFits_iff (Cfg.channel_derivable h2 h3 h4 hmem)).mp hr f hf hfm)

/-- WF5: the code of an index in the list is a non-zero value of the clock-select field. -/
theorem Cfg.csCodeAt_spec {cfg : Cfg} (h : cfg.accepted = true) {c k : Nat} (hc : c < cfg.nAx)
    (hk : k < (cfg.channel c).ratios.length) :
    Machine.csCodeAt (cfg.channel c) k ≠ 0#8 ∧
      Machine.csCodeAt (cfg.channel c) k &&& ~~~(cfg.channel c).csMask = 0#8 := by
  obtain ⟨hlen, -, hcode⟩ := Cfg.csCode_spec h hc
  refine hcode _ ?_
  rw [← hlen] at hk
  simp [Machine.csCodeAt, List.getD_eq_getElem?_getD, hk]

end Sys2Proof

namespace Sys2Proof.Machine

/-- In the range of an `s16` nothing wraps (R12). -/
theorem sext16_wrap16 {z : Int} (hlo : -32768 ≤ z) (hhi : z ≤ 32767) : sext16 (wrap16 z) = z :=
  BitVec.toInt_ofInt_eq_self (by decide) (by simpa using hlo) (by simpa using Int.lt_add_one_of_le hhi)

/-! ## The reset state (R46, R231) -/

section Reset

variable {cfg : Cfg}

@[simp] theorem resetOf_cfg : (State.resetOf cfg).cfg = cfg := rfl

@[simp] theorem resetOf_pending (i : Nat) : (State.resetOf cfg).pending i = false := by
  by_cases hi : i < cfg.axes.length <;> simp [State.pending, State.resetOf, hi]

@[simp] theorem resetOf_overran (i : Nat) : (State.resetOf cfg).overran i = false := by
  by_cases hi : i < cfg.axes.length <;> simp [State.overran, State.resetOf, hi]

variable (h : cfg.accepted = true)
include h

theorem resetOf_axis {i : Nat} (hi : i < cfg.nAx) : (State.resetOf cfg).axis i = AxisRegs.reset (cfg.axis i) := by
  rw [← Cfg.axes_length h] at hi
  simp [State.axis, State.resetOf, Cfg.axis, hi]

theorem resetOf_channel {c : Nat} (hc : c < cfg.nAx) :
    (State.resetOf cfg).channel c = ChannelRegs.reset (cfg.channel c) := by
  rw [← Cfg.channels_length h] at hc
  simp [State.channel, State.resetOf, Cfg.channel, hc]

theorem resetOf_line {i : Nat} (hi : i < cfg.nAx) : (State.resetOf cfg).line i = (cfg.axis i).dirIdle := by
  rw [← Cfg.axes_length h] at hi
  simp [State.line, State.resetOf, Cfg.axis, hi]

/-- The home position fits its register (WF6). -/
theorem sext16_home {i : Nat} (hi : i < cfg.nAx) : sext16 (BitVec.ofInt 16 (cfg.axis i).home) = (cfg.axis i).home := by
  obtain ⟨-, -, hlo, hhi⟩ := Cfg.axis_spec h hi
  exact sext16_wrap16 hlo hhi

theorem resetOf_valid : (State.resetOf cfg).valid = true := by
  refine State.valid_iff.mpr ⟨h, State.fits_iff.mpr ⟨State.tablesFit_iff.mpr ?_, State.indexesFit_iff.mpr ?_, rfl, ?_⟩⟩
  · simp [State.resetOf, Cfg.axes_length h, Cfg.channels_length h]
  · intro c hc
    rw [resetOf_channel h hc]
    exact List.length_pos_iff.mpr (Cfg.ratios_spec h hc).1
  · simp [State.buffersFit, State.resetOf, Memory.wf, Memory.within]

/-- The boot step from reset enables the interrupts and does nothing else (R233). -/
theorem step_boot_resetOf :
    step { State.resetOf cfg with inputs := [.boot] } = .next { State.resetOf cfg with ie := true } :=
  step_boot (s := { State.resetOf cfg with inputs := [.boot] }) (rest := []) (resetOf_valid h) rfl

end Reset

/-- Settles O1: the reset values axis by axis and channel by channel, then the boot step. -/
theorem resetHoldsTheTable : Obligations.ResetHoldsTheTable := by
  unfold Obligations.ResetHoldsTheTable
  intro cfg h
  refine ⟨fun i hi => ?axes, fun c hc => ?channels, rfl, rfl, rfl, Memory.read_nil, Memory.read_nil, rfl, _,
    step_boot_resetOf h, rfl⟩
  case axes =>
    rw [resetOf_axis h hi]
    exact ⟨rfl, sext16_home h hi, sext16_home h hi, rfl, rfl, resetOf_line h hi, resetOf_pending i, resetOf_overran i⟩
  case channels =>
    rw [resetOf_channel h hc]
    exact ⟨rfl, rfl, rfl, (Cfg.field_spec h hc).2, rfl⟩

/-! ## A tracker that is not enabled (R35, R132) -/

/-- Settles O27: the enabling condition of TRACK fails. -/
theorem trackerIsHeldBack : Obligations.TrackerIsHeldBack := by
  unfold Obligations.TrackerIsHeldBack
  intro s i hv hi hheld
  have hoff : trackEnabled i s = false := by
    obtain hp | hie := hheld
    · simp [trackEnabled, hp]
    · simp [trackEnabled, hie]
  exact exec_track_next.mpr ⟨hv, hi, .inr ⟨hoff, rfl⟩⟩

/-! ## Who writes the axis registers and the latches (R21 to R26, R38, R211) -/

section Writers

variable {s t : State}

/-- What an operation can do to the axis table and the latches: four operations write there, any other does not. -/
theorem exec_writers {i : Instr} (h : exec i s = .next t) :
    s.valid = true ∧
      ((t.ax = s.ax ∧ t.pend = s.pend ∧ t.overrun = s.overrun) ∨
        (i = .batch ∧ t = batchAll s) ∨
        (∃ k, i = .updateAxis k ∧ k < s.cfg.nAx ∧ t = (updateAxis k s).setPhase (.upd (k + 1))) ∨
        (∃ c g, i = .ovf c g ∧ t = overflowEvent c g s) ∨
        ∃ k, i = .track k ∧ k < s.cfg.nAx ∧ t = trackAxis k s) := by
  refine ⟨(exec_keeps_valid h).1, ?_⟩
  cases i with
  | getState p =>
    obtain ⟨-, ⟨-, -, rfl⟩ | ⟨-, rfl⟩⟩ := exec_getState_next.mp h <;> exact .inl ⟨rfl, rfl, rfl⟩
  | setState p =>
    obtain ⟨-, ⟨-, -, rfl⟩ | ⟨-, rfl⟩⟩ := exec_setState_next.mp h <;> exact .inl ⟨rfl, rfl, rfl⟩
  | resetReq p =>
    obtain ⟨-, ⟨-, -, rfl⟩ | ⟨-, rfl⟩⟩ := exec_resetReq_next.mp h <;> exact .inl ⟨rfl, rfl, rfl⟩
  | bootReq p =>
    obtain ⟨-, ⟨-, -, rfl⟩ | ⟨-, rfl⟩⟩ := exec_bootReq_next.mp h <;> exact .inl ⟨rfl, rfl, rfl⟩
  | unrecognized op p =>
    obtain ⟨-, ⟨-, -, rfl⟩ | ⟨-, rfl⟩⟩ := exec_unrecognized_next.mp h <;> exact .inl ⟨rfl, rfl, rfl⟩
  | accept =>
    obtain ⟨-, ⟨bytes, -, -, -, rfl⟩ | ⟨-, rfl⟩⟩ := exec_accept_next.mp h
    · rw [acceptRecord_frame]
      exact .inl ⟨rfl, rfl, rfl⟩
    · exact .inl ⟨rfl, rfl, rfl⟩
  | batch =>
    obtain ⟨-, ⟨-, rfl⟩ | ⟨-, rfl⟩⟩ := exec_batch_next.mp h
    · exact .inr (.inl ⟨rfl, rfl⟩)
    · exact .inl ⟨rfl, rfl, rfl⟩
  | updateAxis k =>
    obtain ⟨-, hk, ⟨-, rfl⟩ | ⟨-, rfl⟩⟩ := exec_updateAxis_next.mp h
    · exact .inr (.inr (.inl ⟨k, rfl, hk, rfl⟩))
    · exact .inl ⟨rfl, rfl, rfl⟩
  | clrMask =>
    obtain ⟨-, ⟨-, rfl⟩ | ⟨-, rfl⟩⟩ := exec_clrMask_next.mp h <;> exact .inl ⟨rfl, rfl, rfl⟩
  | snapshot =>
    obtain ⟨-, ⟨-, rfl⟩ | ⟨-, rfl⟩⟩ := exec_snapshot_next.mp h
    · rw [snapshotAll_frame]
      exact .inl ⟨rfl, rfl, rfl⟩
    · exact .inl ⟨rfl, rfl, rfl⟩
  | derive c f =>
    obtain ⟨-, -, rfl⟩ := exec_derive_next.mp h
    exact .inl ⟨deriveChannel_ax c _ s, deriveChannel_pend c _ s, deriveChannel_overrun c _ s⟩
  | enable c =>
    obtain ⟨-, -, rfl⟩ := exec_enable_next.mp h
    exact .inl ⟨rfl, rfl, rfl⟩
  | disable c =>
    obtain ⟨-, -, rfl⟩ := exec_disable_next.mp h
    exact .inl ⟨rfl, rfl, rfl⟩
  | guardEnter =>
    obtain ⟨-, rfl⟩ := exec_guardEnter_next.mp h
    exact .inl ⟨rfl, rfl, rfl⟩
  | guardExit =>
    obtain ⟨-, rfl⟩ := exec_guardExit_next.mp h
    exact .inl ⟨rfl, rfl, rfl⟩
  | ovf c g =>
    obtain ⟨-, -, ⟨-, rfl⟩ | ⟨-, rfl⟩⟩ := exec_ovf_next.mp h
    · exact .inr (.inr (.inr (.inl ⟨c, g, rfl, rfl⟩)))
    · exact .inl ⟨rfl, rfl, rfl⟩
  | track k =>
    obtain ⟨-, hk, ⟨-, rfl⟩ | ⟨-, rfl⟩⟩ := exec_track_next.mp h
    · exact .inr (.inr (.inr (.inr ⟨k, rfl, hk, rfl⟩)))
    · exact .inl ⟨rfl, rfl, rfl⟩

/-! ### The records the writers leave -/

/-- The batch never writes the position (R22). -/
theorem batchAll_axis_pos (h : s.valid = true) (k : Nat) : ((batchAll s).axis k).pos = (s.axis k).pos := by
  by_cases hk : k < s.cfg.nAx ∧ selects (s.cmd.read 1) k = true
  · rw [batchAll_axis_selected h hk.1 hk.2, commandedRegs]
    split
    · rfl
    · split <;> rfl
  · rw [batchAll_axis_unselected h fun hi => by simpa [hi] using hk]

/-- An overflow event writes the latches alone (R131, R210). -/
theorem overflowEvent_frame (c : Nat) (g : Bool) :
    overflowEvent c g s =
      { s with pend := (overflowEvent c g s).pend, overrun := (overflowEvent c g s).overrun } := by
  unfold overflowEvent latchEvent
  split
  · split <;> rfl
  · rfl

theorem updateAxis_axis_ne {i j : Nat} (hij : i ≠ j) : (updateAxis i s).axis j = s.axis j :=
  (updateAxis_other j (s.cfg.chan i + 1) hij (Nat.succ_ne_self _).symm).1

/-- The axis record after TRACK: counted, and at the target stopped (R133, R134). -/
theorem trackAxis_axis_self {i : Nat} (h : i < s.ax.length) :
    (trackAxis i s).axis i =
      if countedPos (s.cfg.axis i) (s.axis i) = (s.axis i).target then
        { s.axis i with pos := countedPos (s.cfg.axis i) (s.axis i), freq := 0#16 }
      else { s.axis i with pos := countedPos (s.cfg.axis i) (s.axis i) } := by
  split
  · next he =>
    rw [trackAxis_stops h he, autoStop, output_axis, disableChannel_axis, State.setFreq,
      axis_setAxis_self _ _ _ (by simpa [State.setPos] using h), State.setPos,
      axis_setAxis_self _ _ _ (by simpa using h)]
    rfl
  · next hne =>
    rw [trackAxis_moves h hne, State.setPos, axis_setAxis_self _ _ _ (by simpa using h)]
    rfl

/-- TRACK writes no other axis record (R212). -/
theorem trackAxis_axis_ne {i j : Nat} (h : i < s.ax.length) (hij : i ≠ j) : (trackAxis i s).axis j = s.axis j := by
  by_cases he : countedPos (s.cfg.axis i) (s.axis i) = (s.axis i).target
  · rw [trackAxis_stops h he, autoStop, output_axis, disableChannel_axis, State.setFreq, axis_setAxis_ne _ _ _ _ hij,
      State.setPos, axis_setAxis_ne _ _ _ _ hij, setPending_axis]
  · rw [trackAxis_moves h he, State.setPos, axis_setAxis_ne _ _ _ _ hij, setPending_axis]

/-- The bound channel after TRACK: disabled at the target, as before anywhere else (R134). -/
theorem trackAxis_channel_self {i : Nat} (h : i < s.ax.length) (hc : s.cfg.chan i < s.ch.length) :
    (trackAxis i s).channel (s.cfg.chan i) =
      if countedPos (s.cfg.axis i) (s.axis i) = (s.axis i).target then
        { s.channel (s.cfg.chan i) with
          ctl := (s.channel (s.cfg.chan i)).ctl &&& ~~~(s.cfg.channel (s.cfg.chan i)).csMask
          isOn := false }
      else s.channel (s.cfg.chan i) := by
  split
  · next he =>
    rw [trackAxis_stops h he, autoStop, output_channel, apply_line_channel]
    exact disableChannel_self _ _ hc
  · next hne =>
    rw [trackAxis_moves h hne]
    rfl

/-- TRACK writes no channel but the bound one (R212). -/
theorem trackAxis_channel_ne {i d : Nat} (h : i < s.ax.length) (hd : s.cfg.chan i ≠ d) :
    (trackAxis i s).channel d = s.channel d := by
  by_cases he : countedPos (s.cfg.axis i) (s.axis i) = (s.axis i).target
  · rw [trackAxis_stops h he, autoStop, output_channel, apply_line_channel]
    exact disableChannel_ne _ _ _ hd
  · rw [trackAxis_moves h he]
    rfl

/-- Settles O54: an operation that is no writer of the axis table leaves it, and each writer's record says which
registers it changes. -/
theorem axisRegistersHaveTheirWriters : Obligations.AxisRegistersHaveTheirWriters := by
  unfold Obligations.AxisRegistersHaveTheirWriters
  intro i s t k h
  obtain ⟨hv, ⟨hax, -, -⟩ | ⟨rfl, rfl⟩ | ⟨j, rfl, hj, rfl⟩ | ⟨c, g, rfl, rfl⟩ | ⟨j, rfl, hj, rfl⟩⟩ := exec_writers h
  · have e : t.axis k = s.axis k := by simp only [State.axis, hax]
    simp [e]
  · simp [batchAll_axis_pos hv]
  · by_cases hjk : j = k
    · subst hjk
      simp [updateAxis_axis_self hv hj]
    · simp [updateAxis_axis_ne hjk]
  · have e : (overflowEvent c g s).axis k = s.axis k := by rw [overflowEvent_frame]; rfl
    simp [e]
  · have hl : j < s.ax.length := (State.valid_tables hv).1 ▸ hj
    by_cases hjk : j = k
    · subst hjk
      rw [trackAxis_axis_self hl]
      split <;> simp
    · simp [trackAxis_axis_ne hl hjk]

/-! ### The latches -/

/-- TRACK clears the latch of its own axis alone (R132). -/
theorem trackAxis_pending_ne {i j : Nat} (hij : i ≠ j) : (trackAxis i s).pending j = s.pending j := by
  obtain ⟨hp, -⟩ := trackAxis_parts i s
  simp [State.pending, hp, hij]

@[simp] theorem trackAxis_overran (i j : Nat) : (trackAxis i s).overran j = s.overran j := by
  obtain ⟨-, -, ho, -⟩ := trackAxis_parts i s
  simp only [State.overran, ho]

/-- A set overrun bit lies in the table. -/
theorem State.lt_length_of_overran {i : Nat} (h : s.overran i = true) : i < s.overrun.length := by
  by_contra hi
  simp [State.overran, hi] at h

/-- An overflow event clears no latch and no overrun bit (R131, R210). -/
theorem overflowEvent_keeps_latches (c : Nat) (g : Bool) (k : Nat) :
    (s.pending k = true → (overflowEvent c g s).pending k = true) ∧
      (s.overran k = true → (overflowEvent c g s).overran k = true) := by
  unfold overflowEvent latchEvent
  split
  · split
    · refine ⟨id, fun ho => ?_⟩
      by_cases hk : boundAxis s.cfg c = k
      · subst hk
        exact overran_setOverrun_self _ _ (State.lt_length_of_overran ho)
      · rwa [overran_setOverrun_ne _ _ _ hk]
    · next hclear =>
      refine ⟨fun hp => ?_, id⟩
      have hk : boundAxis s.cfg c ≠ k := by rintro rfl; exact hclear hp
      rwa [pending_setPending_ne _ _ _ _ hk]
  · exact ⟨id, id⟩

/-- Settles O55: of the writers of the latches an event sets bits alone, and TRACK clears its own latch. -/
theorem onlyTheTrackerClearsTheLatch : Obligations.OnlyTheTrackerClearsTheLatch := by
  unfold Obligations.OnlyTheTrackerClearsTheLatch
  intro i s t k h
  obtain ⟨-, ⟨-, hp, ho⟩ | ⟨rfl, rfl⟩ | ⟨j, rfl, -, rfl⟩ | ⟨c, g, rfl, rfl⟩ | ⟨j, rfl, -, rfl⟩⟩ := exec_writers h
  · have ep : t.pending k = s.pending k := by simp only [State.pending, hp]
    have eo : t.overran k = s.overran k := by simp only [State.overran, ho]
    simp +contextual [ep, eo]
  · rw [batchAll_frame]
    simp +contextual [State.pending, State.overran]
  · rw [updateAxis_frame]
    simp +contextual [State.pending, State.overran]
  · obtain ⟨hp, ho⟩ := overflowEvent_keeps_latches (s := s) c g k
    simp +contextual [hp, ho]
  · by_cases hjk : j = k
    · subst hjk
      simp
    · simp +contextual [trackAxis_pending_ne hjk]

end Writers

/-! ## The invariant of the core (R28, R31 to R34) -/

/-- INV-A, INV-B, INV-C and the clamp of a pending request (R28), as a condition on an axis record and the on flag of
its channel. -/
structure AxisRegs.Kept (a : AxisCfg) (r : AxisRegs) (isOn : Bool) : Prop where
  atTarget : r.pos = r.target → r.freq = 0#16
  runs : r.dirty = false → (r.freq ≠ 0#16 ↔ isOn = true)
  heads : r.freq ≠ 0#16 → (r.dir = a.dirPos ↔ sext16 r.pos < sext16 r.target)
  clamped : r.dirty = true → zext16 r.freq ≤ a.fmax

/-- The conditions of R31 to R34 on a channel record. -/
structure ChannelRegs.Kept (ch : ChannelCfg) (r : ChannelRegs) : Prop where
  onIff : r.isOn = true ↔ r.ctl &&& ch.csMask ≠ 0#8
  code : r.ctl &&& ch.csMask ≠ 0#8 → r.ctl &&& ch.csMask = csCodeAt ch r.psc
  rest : r.ctl &&& ~~~ch.csMask = ch.ctlInit
  reloadLe : r.top.toNat ≤ ch.cmax
  reloadPos : r.isOn = true → 1 ≤ r.top.toNat

section Invariant

variable {s t : State} {i : Nat}

/-- The conditions on an axis and its channel, record by record. -/
theorem State.axisInv_iff : s.AxisInv i ↔
    (s.axis i).Kept (s.cfg.axis i) (s.channel (s.cfg.chan i)).isOn ∧ s.DirtyAwaited i ∧
      (s.channel (s.cfg.chan i)).Kept (s.cfg.channel (s.cfg.chan i)) := by
  have hclk (c : Nat) : s.clocked c = true ↔ s.clockField c ≠ 0#8 := by simp [State.clocked]
  constructor
  · rintro ⟨hA, hB, hC, hP, hD, ⟨hon, hcode, hrest⟩, hle, hpos⟩
    rw [hclk] at hon hcode
    exact ⟨⟨hA, hB, hC, hP⟩, hD, ⟨hon, hcode, hrest, hle, hpos⟩⟩
  · rintro ⟨⟨hA, hB, hC, hP⟩, hD, ⟨hon, hcode, hrest, hle, hpos⟩⟩
    refine ⟨hA, hB, hC, hP, hD, ⟨?_, ?_, hrest⟩, hle, hpos⟩
    · rw [hclk]
      exact hon
    · rw [hclk]
      exact hcode

/-- The foreground has still to update an axis in the phases `UPD(k)` up to its own (R155). -/
theorem State.awaitsUpdate_iff : s.awaitsUpdate i = true ↔ ∃ k, s.fgPc = .upd k ∧ k ≤ i := by
  unfold State.awaitsUpdate
  split <;> simp [*]

/-- A dirty axis is awaited in the phase of the foreground (R155). -/
theorem State.Inv.awaits (h : s.Inv) (hi : i < s.cfg.nAx) (hd : (s.axis i).dirty = true) :
    ∃ k, s.fgPc = .upd k ∧ k ≤ i := by
  obtain ⟨-, hD, -⟩ := State.axisInv_iff.mp (h.2 i hi)
  exact State.awaitsUpdate_iff.mp (hD hd)

/-- Outside the phases `UPD(k)` no axis is dirty (R155). -/
theorem State.Inv.clean (h : s.Inv) (hph : ∀ k, s.fgPc ≠ .upd k) (hi : i < s.cfg.nAx) : (s.axis i).dirty = false := by
  by_contra hd
  obtain ⟨k, hk, -⟩ := h.awaits hi (by simpa using hd)
  exact hph k hk

/-! ### What keeps the conditions on a channel record -/

/-- Clearing the clock-select field leaves the other bits of `CTL` (R123). -/
theorem clearField_and_not (x m : Byte) : x &&& ~~~m &&& ~~~m = x &&& ~~~m := by simp [BitVec.and_assoc]

theorem clearField_and (x m : Byte) : x &&& ~~~m &&& m = 0#8 := by simp [BitVec.and_assoc]

/-- A byte without a bit outside the field is its own field (WF5). -/
theorem and_field_of_inside {x m : Byte} (h : x &&& ~~~m = 0#8) : x &&& m = x := by
  have e : x &&& m ||| x &&& ~~~m = x := by
    rw [← BitVec.and_or_distrib_left, BitVec.or_not_self, BitVec.and_allOnes]
  rwa [h, BitVec.or_zero] at e

theorem ChannelRegs.reset_kept {cfg : Cfg} (h : cfg.accepted = true) {c : Nat} (hc : c < cfg.nAx) :
    (ChannelRegs.reset (cfg.channel c)).Kept (cfg.channel c) := by
  have hfield : (ChannelRegs.reset (cfg.channel c)).ctl &&& (cfg.channel c).csMask = 0#8 := (Cfg.field_spec h hc).2
  have hoff : (ChannelRegs.reset (cfg.channel c)).isOn = false := rfl
  refine ⟨by simp [hfield, hoff], by simp [hfield], ?_, Nat.zero_le _, by simp [hoff]⟩
  exact and_field_of_inside (by simpa using hfield)

/-- DISABLE keeps the conditions: the field is 0 and the channel off (R123). -/
theorem ChannelRegs.Kept.disabled {ch : ChannelCfg} {r : ChannelRegs} (h : r.Kept ch) :
    ({ r with ctl := r.ctl &&& ~~~ch.csMask, isOn := false } : ChannelRegs).Kept ch where
  onIff := by simp [clearField_and]
  code := by simp [clearField_and]
  rest := (clearField_and_not _ _).trans h.rest
  reloadLe := h.reloadLe
  reloadPos := by simp

/-- Starting a channel with a derived pair keeps the conditions: the field is the code of the new index (R121), the
reload value lies in the counter and is not 0 (R104, R109). -/
theorem ChannelRegs.Kept.started {ch : ChannelCfg} {r : ChannelRegs} (h : r.Kept ch) {k top : Nat}
    (hne : csCodeAt ch k ≠ 0#8) (hin : csCodeAt ch k &&& ~~~ch.csMask = 0#8) (htop : 1 ≤ top) (hle : top ≤ ch.cmax)
    (hmax : ch.cmax ≤ 65535) :
    ({ psc := k, top := BitVec.ofNat 16 top, isOn := true
       ctl := r.ctl &&& ~~~ch.csMask ||| csCodeAt ch k } : ChannelRegs).Kept ch := by
  have hfield : (r.ctl &&& ~~~ch.csMask ||| csCodeAt ch k) &&& ch.csMask = csCodeAt ch k := by
    rw [BitVec.and_or_distrib_right, clearField_and, BitVec.zero_or, and_field_of_inside hin]
  have hreload : (BitVec.ofNat 16 top).toNat = top := by
    rw [BitVec.toNat_ofNat, Nat.mod_eq_of_lt (by omega)]
  refine ⟨by simp [hfield, hne], fun _ => hfield, ?_, hreload.trans_le hle, fun _ => htop.trans_eq hreload.symm⟩
  rw [BitVec.and_or_distrib_right, hin, BitVec.or_zero, clearField_and_not, h.rest]

/-! ### What keeps the conditions on an axis record -/

/-- A stopped axis with its channel off meets the conditions wherever it stands (R29). -/
theorem AxisRegs.kept_of_stopped {a : AxisCfg} {r : AxisRegs} (h : r.freq = 0#16) : r.Kept a false where
  atTarget _ := h
  runs _ := by simp [h]
  heads hne := absurd h hne
  clamped _ := by simp [h, zext16]

/-- The clamped request fits its register (R153). -/
theorem zext16_clampFreq {a : AxisCfg} (h : a.fmax ≤ 65535) (f : Nat) :
    zext16 (BitVec.ofNat 16 (clampFreq a f)) = clampFreq a f := by
  have hle : clampFreq a f ≤ a.fmax := min_le_right _ _
  rw [zext16, BitVec.toNat_ofNat, Nat.mod_eq_of_lt (by omega)]

/-- BATCH makes the conditions hold, whatever the record was (R153). -/
theorem commandedRegs_kept {a : AxisCfg} (hdir : a.dirPos ≠ a.dirNeg) (hmax : a.fmax ≤ 65535) (r : AxisRegs) (f : Nat)
    (p : Word16) (isOn : Bool) : (commandedRegs a r f p).Kept a isOn := by
  have hclamp : zext16 (BitVec.ofNat 16 (clampFreq a f)) ≤ a.fmax :=
    (zext16_clampFreq hmax f).trans_le (min_le_right _ _)
  unfold commandedRegs
  split
  · next hlt => exact ⟨fun e => absurd (congrArg sext16 e) hlt.ne, by simp, by simp [hlt], fun _ => hclamp⟩
  · split
    · next hge hgt =>
      exact ⟨fun e => absurd (congrArg sext16 e).symm hgt.ne, by simp, by simp [hdir.symm, hgt.le], fun _ => hclamp⟩
    · exact ⟨by simp, by simp, by simp, by simp [zext16]⟩

/-- UPDATE_AXIS of a non-zero request keeps the conditions: the direction was set with the request (R171). -/
theorem AxisRegs.Kept.resynced {a : AxisCfg} {r : AxisRegs} {isOn : Bool} (h : r.Kept a isOn) (hr : r.freq ≠ 0#16)
    {f : Word16} (hf : f ≠ 0#16) : ({ r with freq := f, dirty := false } : AxisRegs).Kept a true where
  atTarget e := absurd (h.atTarget e) hr
  runs _ := by simp [hf]
  heads _ := h.heads hr
  clamped := by simp

theorem sext16_bounds (v : Word16) : -32768 ≤ sext16 v ∧ sext16 v ≤ 32767 := by
  have hlo := BitVec.le_toInt v
  have hhi := BitVec.toInt_lt (x := v)
  unfold sext16
  omega

/-- A counted step that does not reach the target keeps the conditions: an axis that moves stays on its side of the
target (R133). -/
theorem AxisRegs.Kept.counted {a : AxisCfg} {r : AxisRegs} {isOn : Bool} (h : r.Kept a isOn)
    (hne : countedPos a r ≠ r.target) : ({ r with pos := countedPos a r } : AxisRegs).Kept a isOn where
  atTarget e := absurd e hne
  runs := h.runs
  clamped := h.clamped
  heads hf := by
    have hheads := h.heads hf
    have hpos : sext16 r.pos ≠ sext16 r.target := fun e => hf (h.atTarget (BitVec.toInt_inj.mp e))
    have hcount : sext16 (countedPos a r) ≠ sext16 r.target := fun e => hne (BitVec.toInt_inj.mp e)
    obtain ⟨hlo, hhi⟩ := sext16_bounds r.pos
    obtain ⟨hlo', hhi'⟩ := sext16_bounds r.target
    show r.dir = a.dirPos ↔ sext16 (countedPos a r) < sext16 r.target
    by_cases hd : r.dir = a.dirPos
    · have hlt := hheads.mp hd
      have e : sext16 (countedPos a r) = sext16 r.pos + 1 := by
        rw [countedPos, if_pos hd, sext16_wrap16 (by omega) (by omega)]
      simp only [hd, true_iff]
      omega
    · have hge := mt hheads.mpr hd
      have e : sext16 (countedPos a r) = sext16 r.pos - 1 := by
        rw [countedPos, if_neg hd, sext16_wrap16 (by omega) (by omega)]
      simp only [hd, false_iff]
      omega

/-! ### Steps that write neither table -/

/-- An axis whose records stay keeps its conditions when, dirty, it stays awaited. -/
theorem State.axisInv_of_same (h : s.AxisInv i) (hcfg : t.cfg = s.cfg) (hax : t.axis i = s.axis i)
    (hch : t.channel (s.cfg.chan i) = s.channel (s.cfg.chan i))
    (hd : (s.axis i).dirty = true → t.awaitsUpdate i = true) : t.AxisInv i := by
  obtain ⟨hA, -, hC⟩ := State.axisInv_iff.mp h
  rw [State.axisInv_iff, State.DirtyAwaited, hcfg, hax, hch]
  exact ⟨hA, hd, hC⟩

/-- A step that leaves the axis and channel tables keeps the invariant when every dirty axis stays awaited. -/
theorem State.Inv.of_same_tables (h : s.Inv) (hv : t.valid = true) (hcfg : t.cfg = s.cfg) (hax : t.ax = s.ax)
    (hch : t.ch = s.ch) (hd : ∀ i, i < s.cfg.nAx → (s.axis i).dirty = true → t.awaitsUpdate i = true) : t.Inv := by
  refine ⟨hv, fun i hi => ?_⟩
  rw [hcfg] at hi
  exact State.axisInv_of_same (h.2 i hi) hcfg (by simp only [State.axis, hax]) (by simp only [State.channel, hch])
    (hd i hi)

/-- It does so when the phase stays. -/
theorem State.Inv.of_same_phase (h : s.Inv) (hv : t.valid = true) (hcfg : t.cfg = s.cfg) (hax : t.ax = s.ax)
    (hch : t.ch = s.ch) (hph : t.fgPc = s.fgPc) : t.Inv := by
  refine h.of_same_tables hv hcfg hax hch fun i hi hdirty => ?_
  rw [State.awaitsUpdate_iff, hph]
  exact h.awaits hi hdirty

/-- It does so from a phase in which no axis is dirty. -/
theorem State.Inv.of_clean_phase (h : s.Inv) (hv : t.valid = true) (hcfg : t.cfg = s.cfg) (hax : t.ax = s.ax)
    (hch : t.ch = s.ch) (hph : ∀ k, s.fgPc ≠ .upd k) : t.Inv :=
  h.of_same_tables hv hcfg hax hch fun i hi hdirty => absurd hdirty (by simp [h.clean hph hi])

/-! ### The reset state and the steps that write the tables -/

/-- The reset state meets the invariant: every axis stands stopped at its target (R46). -/
theorem resetOf_inv {cfg : Cfg} (h : cfg.accepted = true) : (State.resetOf cfg).Inv := by
  refine ⟨resetOf_valid h, fun i hi => ?_⟩
  have hc := Cfg.chan_lt h hi
  rw [State.axisInv_iff, State.DirtyAwaited, resetOf_cfg, resetOf_axis h hi, resetOf_channel h hc]
  exact ⟨AxisRegs.kept_of_stopped rfl, fun hd => absurd hd (by simp [AxisRegs.reset]), ChannelRegs.reset_kept h hc⟩

/-- BATCH keeps the invariant: every update comes after it, so a selected axis may be dirty (R153, R155). -/
theorem batchAll_inv (h : s.Inv) : (batchAll s).Inv := by
  have hacc := State.valid_accepted h.1
  have hcfg : (batchAll s).cfg = s.cfg := by rw [batchAll_frame]
  have hch (c : Nat) : (batchAll s).channel c = s.channel c := by rw [batchAll_frame]; rfl
  refine ⟨batchAll_valid h.1, fun i hi => ?_⟩
  rw [hcfg] at hi
  obtain ⟨hA, -, hC⟩ := State.axisInv_iff.mp (h.2 i hi)
  rw [State.axisInv_iff, hcfg, hch]
  refine ⟨?_, fun _ => State.awaitsUpdate_iff.mpr ⟨0, by rw [batchAll_frame], Nat.zero_le i⟩, hC⟩
  by_cases hsel : selects (s.cmd.read 1) i = true
  · obtain ⟨hdir, hmax, -⟩ := Cfg.axis_spec hacc hi
    rw [batchAll_axis_selected h.1 hi hsel]
    exact commandedRegs_kept hdir hmax _ _ _ _
  · rw [batchAll_axis_unselected h.1 fun _ => by simpa using hsel]
    exact hA

/-- A non-zero reload value achieves at least the frequency asked for: the division rounds it down (R104, R106). -/
theorem le_deriveAchieved {fClk f : Nat} {ch : ChannelCfg} (hd : ch.Derivable) (hf : 1 ≤ f)
    (htop : 1 ≤ deriveTop fClk ch f) : f ≤ deriveAchieved fClk ch f := by
  have hs := hd.scale_pos
  have hp := hd.ratioAt_pos (derivePsc_spec fClk ch f hd.nonempty).1
  have hle : deriveTop fClk ch f ≤ fClk / (ch.scale * f * ratioAt ch (derivePsc fClk ch f)) :=
    (min_le_left _ _).trans_eq (reloadAt_eq fClk hs hf hp)
  rw [Nat.le_div_iff_mul_le (by positivity)] at hle
  rw [deriveAchieved, divFloor_eq (by positivity), Nat.le_div_iff_mul_le (by positivity)]
  calc f * (ch.scale * deriveTop fClk ch f * ratioAt ch (derivePsc fClk ch f))
      = deriveTop fClk ch f * (ch.scale * f * ratioAt ch (derivePsc fClk ch f)) := by ring
    _ ≤ fClk := hle

/-- What WF7 buys (R109): the derivation of a non-zero request within the bound has a non-zero result, in 16 bits. -/
theorem deriveResult_ne_zero {cfg : Cfg} (h : cfg.accepted = true) {f : Nat} (hi : i < cfg.nAx) (hf : f ≠ 0)
    (hfm : f ≤ (cfg.axis i).fmax) :
    deriveResult cfg (cfg.chan i) f ≠ 0 ∧ BitVec.ofNat 16 (deriveResult cfg (cfg.chan i) f) ≠ 0#16 := by
  obtain ⟨-, h2, h3, h4, -⟩ := Cfg.accepted_iff.mp h
  have hpos := Nat.pos_of_ne_zero hf
  obtain ⟨htop, hach⟩ := Cfg.request_fits h hi hpos hfm
  have hle := le_deriveAchieved (Cfg.channel_derivable h2 h3 h4 (Cfg.axis_mem (Cfg.axes_length h) hi)) hpos htop
  have hne : deriveResult cfg (cfg.chan i) f ≠ 0 := by
    rw [deriveResult, if_neg hf]
    exact (hpos.trans_le hle).ne'
  have hres : deriveResult cfg (cfg.chan i) f ≤ 65535 := by rwa [deriveResult, if_neg hf]
  refine ⟨hne, fun e => hne ?_⟩
  have hmod := congrArg BitVec.toNat e
  rwa [BitVec.toNat_ofNat, Nat.mod_eq_of_lt (by omega)] at hmod

/-- UPDATE_AXIS leaves its axis stopped with its channel off, or moving with its channel on (R171, R173). -/
theorem updateAxis_own_kept (h : s.Inv) (hi : i < s.cfg.nAx) (hd : (s.axis i).dirty = true) :
    ((updateAxis i s).axis i).Kept (s.cfg.axis i) ((updateAxis i s).channel (s.cfg.chan i)).isOn ∧
      ((updateAxis i s).channel (s.cfg.chan i)).Kept (s.cfg.channel (s.cfg.chan i)) := by
  have hacc := State.valid_accepted h.1
  have hc := Cfg.chan_lt hacc hi
  have hl : s.cfg.chan i < (guardEnter s).ch.length := by
    rw [guardEnter_ch, (State.valid_tables h.1).2.1]
    exact hc
  obtain ⟨hA, -, hC⟩ := State.axisInv_iff.mp (h.2 i hi)
  have hclamp : clampFreq (s.cfg.axis i) (zext16 (s.axis i).freq) = zext16 (s.axis i).freq :=
    min_eq_left (hA.clamped hd)
  rw [updateAxis_axis_self h.1 hi, hclamp]
  by_cases hf : (s.axis i).freq = 0#16
  · have h0 : deriveResult s.cfg (s.cfg.chan i) (zext16 (s.axis i).freq) = 0 := by rw [hf]; rfl
    rw [(updateAxis_stop h.1 hi (by rw [hclamp]; exact h0)).2, hclamp, h0, hf, show zext16 0#16 = 0 from rfl,
      deriveChannel_zero, disableChannel_self _ _ (by simpa using hl), disableChannel_self _ _ hl]
    exact ⟨AxisRegs.kept_of_stopped rfl, hC.disabled.disabled⟩
  · have hfpos : zext16 (s.axis i).freq ≠ 0 := fun e => hf (BitVec.eq_of_toNat_eq e)
    obtain ⟨hne, hfreq⟩ := deriveResult_ne_zero hacc hi hfpos (hA.clamped hd)
    obtain ⟨htop, -⟩ := Cfg.request_fits hacc hi (Nat.pos_of_ne_zero hfpos) (hA.clamped hd)
    obtain ⟨hratios, -⟩ := Cfg.ratios_spec hacc hc
    obtain ⟨hpsc, -⟩ := derivePsc_spec s.cfg.fClk _ (zext16 (s.axis i).freq) hratios
    obtain ⟨hcode, hin⟩ := Cfg.csCodeAt_spec hacc hc hpsc
    obtain ⟨-, -, hmax⟩ := Cfg.counter_spec hacc hc
    rw [(updateAxis_start h.1 hi (by rw [hclamp]; exact hne)).2, hclamp,
      enableChannel_self _ _ (by simpa using hl), deriveChannel_self _ _ hfpos hl]
    simp only [deriveChannel_cfg, guardEnter_cfg, guardEnter_channel]
    exact ⟨hA.resynced hf hfreq, hC.started hcode hin htop (deriveTop_le _ _ _) hmax⟩

/-- UPDATE_AXIS keeps the invariant: its axis is clean from then on, and the others are awaited as before (R155). -/
theorem updateAxis_inv (h : s.Inv) (hi : i < s.cfg.nAx) (hph : s.fgPc = .upd i) (hd : (s.axis i).dirty = true) :
    ((updateAxis i s).setPhase (.upd (i + 1))).Inv := by
  have hacc := State.valid_accepted h.1
  have hcfg : ((updateAxis i s).setPhase (.upd (i + 1))).cfg = s.cfg := updateAxis_cfg i
  refine ⟨updateAxis_setPhase_valid h.1 hi, fun j hj => ?_⟩
  rw [hcfg] at hj
  by_cases hij : i = j
  · subst hij
    obtain ⟨hA, hC⟩ := updateAxis_own_kept h hi hd
    rw [State.axisInv_iff, State.DirtyAwaited, hcfg]
    refine ⟨hA, fun hdirty => absurd hdirty ?_, hC⟩
    rw [setPhase_axis, updateAxis_axis_self h.1 hi]
    simp
  · obtain ⟨hax, -, hch⟩ := updateAxis_other (s := s) j (s.cfg.chan j) hij fun e => hij (Cfg.chan_inj hacc hi hj e)
    refine State.axisInv_of_same (h.2 j hj) hcfg hax hch fun hdirty => State.awaitsUpdate_iff.mpr ⟨i + 1, rfl, ?_⟩
    obtain ⟨k, hk, hkj⟩ := h.awaits hj hdirty
    rw [hph, Phase.upd.injEq] at hk
    omega

/-- TRACK leaves its axis moving on, or stopped with its channel off (R133, R134). -/
theorem trackAxis_own_kept (h : s.Inv) (hi : i < s.cfg.nAx) :
    ((trackAxis i s).axis i).Kept (s.cfg.axis i) ((trackAxis i s).channel (s.cfg.chan i)).isOn ∧
      ((trackAxis i s).channel (s.cfg.chan i)).Kept (s.cfg.channel (s.cfg.chan i)) := by
  obtain ⟨hax, hch, -⟩ := State.valid_tables h.1
  have hl : i < s.ax.length := hax ▸ hi
  have hc : s.cfg.chan i < s.ch.length := hch ▸ Cfg.chan_lt (State.valid_accepted h.1) hi
  obtain ⟨hA, -, hC⟩ := State.axisInv_iff.mp (h.2 i hi)
  rw [trackAxis_axis_self hl, trackAxis_channel_self hl hc]
  split
  · exact ⟨AxisRegs.kept_of_stopped rfl, hC.disabled⟩
  · next hne => exact ⟨hA.counted hne, hC⟩

/-- TRACK keeps the invariant, in any phase of the foreground (R71). -/
theorem trackAxis_inv (h : s.Inv) (hi : i < s.cfg.nAx) : (trackAxis i s).Inv := by
  have hacc := State.valid_accepted h.1
  have hl : i < s.ax.length := (State.valid_tables h.1).1 ▸ hi
  obtain ⟨-, hcfg, -, -, -, hph, -⟩ := trackAxis_parts i s
  have hawaits (j : Nat) (hj : j < s.cfg.nAx) (hdirty : (s.axis j).dirty = true) :
      (trackAxis i s).awaitsUpdate j = true := by
    rw [State.awaitsUpdate_iff, hph]
    exact h.awaits hj hdirty
  refine ⟨trackAxis_valid h.1 i, fun j hj => ?_⟩
  rw [hcfg] at hj
  by_cases hij : i = j
  · subst hij
    obtain ⟨hA, hC⟩ := trackAxis_own_kept h hi
    rw [State.axisInv_iff, State.DirtyAwaited, hcfg]
    refine ⟨hA, fun hdirty => hawaits i hi ?_, hC⟩
    rw [trackAxis_axis_self hl] at hdirty
    split at hdirty <;> exact hdirty
  · exact State.axisInv_of_same (h.2 j hj) hcfg (trackAxis_axis_ne hl hij)
      (trackAxis_channel_ne hl fun e => hij (Cfg.chan_inj hacc hi hj e)) (hawaits j hj)

/-- Past the last axis none is awaited, and none is dirty (R155). -/
theorem State.Inv.leaveUpdates (h : s.Inv) (hph : s.fgPc = .upd s.cfg.nAx) : (s.setPhase .clr).Inv := by
  refine h.of_same_tables (State.setPhase_valid h.1 rfl) rfl rfl rfl fun i hi hdirty => ?_
  obtain ⟨k, hk, hki⟩ := h.awaits hi hdirty
  rw [hph, Phase.upd.injEq] at hk
  omega

/-- Skipping a clean axis leaves every dirty one awaited (R155). -/
theorem State.Inv.skipClean (h : s.Inv) {k : Nat} (hph : s.fgPc = .upd k) (hk : k ≠ s.cfg.nAx)
    (hclean : (s.axis k).dirty = false) : (s.setPhase (.upd (k + 1))).Inv := by
  have hle : k ≤ s.cfg.nAx := by simpa [State.phaseFits, hph] using State.valid_phase h.1
  have hfits : (s.setPhase (.upd (k + 1))).phaseFits = true := by
    simpa [State.phaseFits] using lt_of_le_of_ne hle hk
  refine h.of_same_tables (State.setPhase_valid h.1 hfits) rfl rfl rfl fun i hi hdirty => ?_
  obtain ⟨j, hj, hji⟩ := h.awaits hi hdirty
  rw [hph, Phase.upd.injEq] at hj
  have hne : k ≠ i := by
    rintro rfl
    simp [hclean] at hdirty
  exact State.awaitsUpdate_iff.mpr ⟨k + 1, rfl, by omega⟩

/-! ### Every step -/

/-- The operations that are steps of an agent keep the invariant (R186). -/
theorem State.Inv.exec {op : Instr} (hop : Instr.IsAgentStep op) (h : s.Inv) (he : exec op s = .next t) : t.Inv := by
  have hv : t.valid = true := (exec_keeps_valid he).2.1
  obtain rfl | rfl | ⟨k, rfl⟩ | rfl | rfl | ⟨c, g, rfl⟩ | ⟨k, rfl⟩ := hop
  · obtain ⟨-, ⟨bytes, hidle, -, -, rfl⟩ | ⟨-, rfl⟩⟩ := exec_accept_next.mp he
    · have hph : s.fgPc = .idle := by simpa [State.isIdle] using hidle
      exact h.of_clean_phase hv (acceptRecord_cfg bytes) (by rw [acceptRecord_frame]) (by rw [acceptRecord_frame])
        (by simp [hph])
    · exact h
  · obtain ⟨-, ⟨-, rfl⟩ | ⟨-, rfl⟩⟩ := exec_batch_next.mp he
    · exact batchAll_inv h
    · exact h
  · obtain ⟨-, hk, ⟨hen, rfl⟩ | ⟨-, rfl⟩⟩ := exec_updateAxis_next.mp he
    · obtain ⟨hph, hd⟩ : s.fgPc = .upd k ∧ (s.axis k).dirty = true := by simpa [updateEnabled] using hen
      exact updateAxis_inv h hk hph hd
    · exact h
  · obtain ⟨-, ⟨hph, rfl⟩ | ⟨-, rfl⟩⟩ := exec_clrMask_next.mp he
    · exact h.of_clean_phase hv rfl rfl rfl (by simp [hph])
    · exact h
  · obtain ⟨-, ⟨hph, rfl⟩ | ⟨-, rfl⟩⟩ := exec_snapshot_next.mp he
    · exact h.of_clean_phase hv (by rw [snapshotAll_frame]) (by rw [snapshotAll_frame]) (by rw [snapshotAll_frame])
        (by simp [hph])
    · exact h
  · obtain ⟨-, -, ⟨-, rfl⟩ | ⟨-, rfl⟩⟩ := exec_ovf_next.mp he
    · exact h.of_same_phase hv (overflowEvent_cfg c g) (by rw [overflowEvent_frame]) (by rw [overflowEvent_frame])
        (by rw [overflowEvent_frame])
    · exact h
  · obtain ⟨-, hk, ⟨-, rfl⟩ | ⟨-, rfl⟩⟩ := exec_track_next.mp he
    · exact trackAxis_inv h hk
    · exact h

/-- `rst` leaves the reset state, with the port and the inputs of the outside (R232). -/
theorem assertReset_inv (h : s.valid = true) : (assertReset s).Inv :=
  resetOf_inv (cfg := s.cfg) (State.valid_accepted h)

theorem bootStep_inv (h : s.Inv) : (bootStep s).Inv := by
  unfold bootStep
  split
  · exact h
  · exact h

theorem presentRecord_inv (h : s.Inv) (bytes : List Byte) : (presentRecord bytes s).Inv := by
  unfold presentRecord
  split
  · exact h
  · exact h

end Invariant

/-- Settles O53: agent by agent, and the turns of the outside. -/
theorem everyStepKeepsTheInvariant : Obligations.EveryStepKeepsTheInvariant := by
  unfold Obligations.EveryStepKeepsTheInvariant
  intro s t h hstep
  have h0 : s.turned.Inv := h
  obtain ⟨hv, ⟨op, hop, he⟩ | ⟨hph, rfl⟩ | ⟨k, hph, hk, hclean, rfl⟩ | ⟨-, rfl⟩ | ⟨-, rfl⟩ | ⟨bytes, -, rfl⟩⟩ :=
    step_cases hstep
  · exact h0.exec hop he
  · exact h0.leaveUpdates hph
  · exact h0.skipClean hph hk hclean
  · exact assertReset_inv (s := { s with inputs := s.inputs.tail }) hv
  · exact bootStep_inv h0
  · exact presentRecord_inv h0 bytes

/-- Settles O4: the reset state meets the invariant, and the boot step sets `IE` alone. -/
theorem resetAndBootReachALaunchState : Obligations.ResetAndBootReachALaunchState := by
  unfold Obligations.ResetAndBootReachALaunchState
  intro cfg h
  have hclean (i : Nat) (hi : i < cfg.nAx) : ((State.resetOf cfg).axis i).dirty = false := by
    rw [resetOf_axis h hi]
    rfl
  have hinv := resetOf_inv h
  exact ⟨hinv, _, step_boot_resetOf h, hinv, rfl, rfl, fun i hi => ⟨hclean i hi, resetOf_pending i, resetOf_overran i⟩⟩

end Sys2Proof.Machine

/-! PROOFS. The statements of 20_memory.md: an index that does not exist (R62), and the order in which the outside sees
the output writes of an operation (R73, R105, R134, R175). -/

namespace Sys2Proof

/-- WF5: an index of the ratio list is one of the code list. -/
theorem Cfg.csCode_getElem? {cfg : Cfg} (h : cfg.accepted = true) {c k : Nat} (hc : c < cfg.nAx)
    (hk : k < (cfg.channel c).ratios.length) :
    (cfg.channel c).csCode[k]? = some (Machine.csCodeAt (cfg.channel c) k) := by
  obtain ⟨hlen, -⟩ := Cfg.csCode_spec h hc
  rw [← hlen] at hk
  simp [Machine.csCodeAt, List.getD_eq_getElem?_getD, hk]

/-- WF4: the reload value DERIVE writes fits its register (R104). -/
theorem Cfg.toNat_ofNat_deriveTop {cfg : Cfg} (h : cfg.accepted = true) {c : Nat} (hc : c < cfg.nAx) (f : Nat) :
    (BitVec.ofNat 16 (Machine.deriveTop cfg.fClk (cfg.channel c) f)).toNat =
      Machine.deriveTop cfg.fClk (cfg.channel c) f := by
  obtain ⟨-, -, hmax⟩ := Cfg.counter_spec h hc
  have hle := Machine.deriveTop_le cfg.fClk (cfg.channel c) f
  rw [BitVec.toNat_ofNat, Nat.mod_eq_of_lt (by omega)]

end Sys2Proof

namespace Sys2Proof.Machine

/-! ## An index that does not exist (R62) -/

theorem whenIndex_of_le {s : State} {i : Nat} (h : s.cfg.nAx ≤ i) (r : Result) :
    whenIndex i s r = .refused (.indexOutOfRange i) :=
  if_neg h.not_gt

/-- After the check of its state an operation with an index checks the index. -/
theorem exec_eq_whenIndex {s : State} (hv : s.valid = true) {i : Nat} {f : Word16} {g : Bool} {op : Instr}
    (hop : op ∈ [Instr.updateAxis i, .derive i f, .enable i, .disable i, .ovf i g, .track i]) :
    ∃ r, exec op s = whenIndex i s r := by
  simp only [List.mem_cons, List.not_mem_nil, or_false] at hop
  obtain rfl | rfl | rfl | rfl | rfl | rfl := hop <;> exact ⟨_, whenValid_of_valid hv⟩

/-- Settles O6: the check of the index comes right after the check of the state. -/
theorem missingIndexIsRefused : Obligations.MissingIndexIsRefused := by
  unfold Obligations.MissingIndexIsRefused
  intro s i f g hv hi op hop
  obtain ⟨r, e⟩ := exec_eq_whenIndex hv hop
  rw [e, whenIndex_of_le hi]

/-! ## The order of the output writes (R73) -/

section WriteOrder

variable {s : State} {c : Nat} (h : c < s.ch.length)
include h

/-- DISABLE shows the control register it leaves (R123). -/
theorem disableChannel_outputs_final :
    (disableChannel c s).outputs = s.outputs ++ [.ctl c ((disableChannel c s).channel c).ctl] := by
  rw [disableChannel_outputs, disableChannel_self _ _ h]

/-- ENABLE shows the control register it leaves (R121). -/
theorem enableChannel_outputs_final :
    (enableChannel c s).outputs = s.outputs ++ [.ctl c ((enableChannel c s).channel c).ctl] := by
  rw [enableChannel_outputs, enableChannel_self _ _ h]

/-- DERIVE of a non-zero frequency shows the three registers it leaves, in the order of R105. -/
theorem deriveChannel_outputs_final {f : Nat} (hf : f ≠ 0) :
    (deriveChannel c f s).outputs =
      s.outputs ++
        [.ctl c ((deriveChannel c f s).channel c).ctl, .psc c ((deriveChannel c f s).channel c).psc,
          .top c ((deriveChannel c f s).channel c).top] := by
  rw [deriveChannel_outputs _ _ hf, deriveChannel_self _ _ hf h]

end WriteOrder

/-- TRACK ends at the target when the counted position is the target (R134). -/
theorem trackAxis_atTarget_iff {s : State} {i : Nat} (h : i < s.ax.length) :
    ((trackAxis i s).axis i).pos = ((trackAxis i s).axis i).target ↔
      countedPos (s.cfg.axis i) (s.axis i) = (s.axis i).target := by
  rw [trackAxis_axis_self h]
  split <;> rfl

/-- TRACK onto the target shows the control register it leaves, then the idle level of the line (R134). -/
theorem trackAxis_outputs_stopped {s : State} {i : Nat} (h : i < s.ax.length) (hc : s.cfg.chan i < s.ch.length)
    (he : countedPos (s.cfg.axis i) (s.axis i) = (s.axis i).target) :
    (trackAxis i s).outputs =
      s.outputs ++
        [.ctl (s.cfg.chan i) ((trackAxis i s).channel (s.cfg.chan i)).ctl, .line i (s.cfg.axis i).dirIdle] := by
  rw [trackAxis_outputs h, trackAxis_channel_self h hc, if_pos he, if_pos he]

/-- TRACK away from the target shows nothing (R133). -/
theorem trackAxis_outputs_moved {s : State} {i : Nat} (h : i < s.ax.length)
    (hne : countedPos (s.cfg.axis i) (s.axis i) ≠ (s.axis i).target) : (trackAxis i s).outputs = s.outputs := by
  rw [trackAxis_outputs h, if_neg hne, List.append_nil]

/-- Settles O58: each operation lists its writes with the values its registers end with. -/
theorem channelAndStopWritesInOrder : Obligations.ChannelAndStopWritesInOrder := by
  unfold Obligations.ChannelAndStopWritesInOrder
  intro s k hv hk
  obtain ⟨hax, hch, -⟩ := State.valid_tables hv
  have hl : k < s.ax.length := hax ▸ hk
  have hc : k < s.ch.length := hch ▸ hk
  have hchan : s.cfg.chan k < s.ch.length := hch ▸ Cfg.chan_lt (State.valid_accepted hv) hk
  refine ⟨⟨_, exec_disable_next.mpr ⟨hv, hk, rfl⟩, disableChannel_outputs_final hc⟩,
    ⟨_, exec_enable_next.mpr ⟨hv, hk, rfl⟩, enableChannel_outputs_final hc⟩,
    fun f => ⟨_, exec_derive_next.mpr ⟨hv, hk, rfl⟩, ?zero, fun hf => deriveChannel_outputs_final hc ?nonzero⟩,
    fun hp hie => ⟨_, exec_track_next.mpr ⟨hv, hk, .inl ⟨?enabled, rfl⟩⟩, ?_⟩⟩
  case zero =>
    rintro rfl
    exact disableChannel_outputs_final hc
  case nonzero => exact fun e => hf (BitVec.eq_of_toNat_eq e)
  case enabled => simp [trackEnabled, hp, hie]
  rw [ne_eq, trackAxis_atTarget_iff hl]
  exact ⟨trackAxis_outputs_stopped hl hchan, trackAxis_outputs_moved hl⟩

/-- Settles O57: the clamped request decides between a stop and a start, and WF7 keeps the result of a start from being
0. -/
theorem updateAxisWritesInOrder : Obligations.UpdateAxisWritesInOrder := by
  unfold Obligations.UpdateAxisWritesInOrder
  rintro s i _ f _ hv hi hph hd rfl hf rfl
  have hacc := State.valid_accepted hv
  have hc := Cfg.chan_lt hacc hi
  have hen : updateEnabled i s = true := by simp [updateEnabled, hph, hd]
  refine ⟨_, exec_updateAxis_next.mpr ⟨hv, hi, .inl ⟨hen, rfl⟩⟩, fun h0 => ?stop, fun h0 => ?start⟩
  case stop => exact updateAxis_stop_outputs hv hi (hf.symm.trans h0)
  case start =>
    have hfmax : f ≤ (s.cfg.axis i).fmax := hf.trans_le (min_le_right _ _)
    obtain ⟨hres, -⟩ := deriveResult_ne_zero hacc hi h0 hfmax
    obtain ⟨hpsc, -⟩ := derivePsc_spec s.cfg.fClk (s.cfg.channel (s.cfg.chan i)) f (Cfg.ratios_spec hacc hc).1
    exact ⟨_, _, Cfg.toNat_ofNat_deriveTop hacc hc f, Cfg.csCode_getElem? hacc hc hpsc,
      updateAxis_start_outputs hv hi hf h0 hres⟩

end Sys2Proof.Machine

/-! PROOFS. The statements of 30_encoding.md: the command records and their codec (R80 to R89), the command a record on the
port decodes to (R86, R146), and what the batch reads of a record (R82, R152). -/

namespace Sys2Proof

/-! ## The choice on the opcode byte (R87) -/

section Opcodes

variable {cfg : Cfg}

/-- What the choice on the opcode byte says of the byte. -/
theorem opKind_cases (cfg : Cfg) (op : Byte) :
    (opKind cfg op = .reset ∧ op = cfg.opReset) ∨ (opKind cfg op = .boot ∧ op = cfg.opBoot) ∨
      (opKind cfg op = .set ∧ op = cfg.opSet) ∨ (opKind cfg op = .get ∧ op = cfg.opGet) ∨
        (opKind cfg op = .unrecognized ∧ cfg.recognises op = false) := by
  by_cases hr : op = cfg.opReset
  · exact .inl ⟨by rw [opKind, if_pos hr], hr⟩
  by_cases hb : op = cfg.opBoot
  · exact .inr (.inl ⟨by rw [opKind, if_neg hr, if_pos hb], hb⟩)
  by_cases hs : op = cfg.opSet
  · exact .inr (.inr (.inl ⟨by rw [opKind, if_neg hr, if_neg hb, if_pos hs], hs⟩))
  by_cases hg : op = cfg.opGet
  · exact .inr (.inr (.inr (.inl ⟨by rw [opKind, if_neg hr, if_neg hb, if_neg hs, if_pos hg], hg⟩)))
  · have hu : cfg.recognises op = false := by simp [Cfg.recognises, hr, hb, hs, hg]
    exact .inr (.inr (.inr (.inr ⟨opKind_unrecognized hu, hu⟩)))

theorem commandOf_opGet (h : cfg.accepted = true) (p : Payload) : commandOf cfg cfg.opGet p = .getState p := by
  rw [commandOf, opKind_opGet h]

theorem commandOf_opSet (h : cfg.accepted = true) (p : Payload) : commandOf cfg cfg.opSet p = .setState p := by
  rw [commandOf, opKind_opSet h]

theorem commandOf_opReset (cfg : Cfg) (p : Payload) : commandOf cfg cfg.opReset p = .resetReq p := by
  rw [commandOf, opKind_opReset]

theorem commandOf_opBoot (h : cfg.accepted = true) (p : Payload) : commandOf cfg cfg.opBoot p = .bootReq p := by
  rw [commandOf, opKind_opBoot h]

theorem commandOf_unrecognized {op : Byte} (h : cfg.recognises op = false) (p : Payload) :
    commandOf cfg op p = .unrecognized op p := by
  rw [commandOf, opKind_unrecognized h]

/-- A command keeps its opcode byte and its content (R81, R87). -/
theorem encode_commandOf (cfg : Cfg) (op : Byte) (p : Payload) :
    encode cfg (commandOf cfg op p) = some (encodeRecord op p) := by
  unfold commandOf
  obtain ⟨hk, rfl⟩ | ⟨hk, rfl⟩ | ⟨hk, rfl⟩ | ⟨hk, rfl⟩ | ⟨hk, -⟩ := opKind_cases cfg op <;> rw [hk] <;> rfl

/-- The opcode byte never makes a command ill-formed (R88). -/
theorem wellFormed_commandOf (cfg : Cfg) (op : Byte) (p : Payload) :
    (commandOf cfg op p).wellFormed cfg = p.fits cfg := by
  unfold commandOf
  cases hk : opKind cfg op with
  | get | set | reset | boot => rfl
  | unrecognized =>
    have hu : cfg.recognises op = false := by simpa [hk] using opKind_cases cfg op
    simp [Instr.wellFormed, hu]

/-- A well-formed operation with a record is the command of its opcode byte and content. -/
theorem eq_commandOf_of_encode {i : Instr} {bytes : List Byte} (h : cfg.accepted = true) (hw : i.wellFormed cfg = true)
    (he : encode cfg i = some bytes) :
    ∃ op p, p.fits cfg = true ∧ bytes = encodeRecord op p ∧ i = commandOf cfg op p := by
  cases i with
  | getState p => exact ⟨_, p, hw, (Option.some.inj he).symm, (commandOf_opGet h p).symm⟩
  | setState p => exact ⟨_, p, hw, (Option.some.inj he).symm, (commandOf_opSet h p).symm⟩
  | resetReq p => exact ⟨_, p, hw, (Option.some.inj he).symm, (commandOf_opReset cfg p).symm⟩
  | bootReq p => exact ⟨_, p, hw, (Option.some.inj he).symm, (commandOf_opBoot h p).symm⟩
  | unrecognized op p =>
    obtain ⟨hf, hu⟩ : p.fits cfg = true ∧ cfg.recognises op = false := by simpa [Instr.wellFormed] using hw
    exact ⟨op, p, hf, (Option.some.inj he).symm, (commandOf_unrecognized hu p).symm⟩
  | accept | batch | updateAxis | clrMask | snapshot | derive | enable | disable | guardEnter | guardExit | ovf | track =>
    exact absurd he (Option.some_ne_none _).symm

/-- The four opcodes and 99 are pairwise different (R87). -/
theorem Cfg.opcodes_nodup_99 (h : cfg.accepted = true) :
    [cfg.opGet, cfg.opSet, cfg.opReset, cfg.opBoot, 99#8].Nodup := by
  obtain ⟨-, -, -, -, -, -, -, -, hlegal⟩ := Cfg.accepted_iff.mp h
  simp only [Cfg.legalValues, Bool.and_eq_true, decide_eq_true_eq] at hlegal
  exact (Cfg.opcodes_nodup h).concat hlegal.2

end Opcodes

/-! ## Records and their bytes (R80, R81) -/

section Records

variable {cfg : Cfg} {bytes : List Byte} {p : Payload}

theorem decodeSlots_flatMap_encodeSlot (slots : List Slot) : decodeSlots (slots.flatMap encodeSlot) = slots := by
  induction slots with
  | nil => rfl
  | cons sl slots ih => rw [List.flatMap_cons, decodeSlots_encodeSlot, ih]

/-- Bytes in fours are the bytes of as many slots. -/
theorem exists_slots_of_length (n : Nat) (bs : List Byte) (h : bs.length = 4 * n) :
    ∃ slots : List Slot, slots.length = n ∧ slots.flatMap encodeSlot = bs := by
  induction n generalizing bs with
  | zero => exact ⟨[], rfl, (List.length_eq_zero_iff.mp h).symm⟩
  | succ n ih =>
    match bs, h with
    | b0 :: b1 :: b2 :: b3 :: rest, h =>
      obtain ⟨slots, hn, rfl⟩ := ih rest (by simp only [List.length_cons] at h; omega)
      exact ⟨_ :: slots, congrArg (· + 1) hn, by rw [List.flatMap_cons, encodeSlot_decoded]; rfl⟩

/-- Bytes of the one length are a record that fits, whatever their values (R80, R88). -/
theorem exists_record_of_length (h : bytes.length = cfg.cmdLen) :
    ∃ op p, p.fits cfg = true ∧ bytes = encodeRecord op p := by
  rw [Cfg.cmdLen] at h
  match bytes, h with
  | op :: mask :: rest, h =>
    obtain ⟨slots, hn, rfl⟩ := exists_slots_of_length cfg.nAx rest (by simp only [List.length_cons] at h; omega)
    exact ⟨op, ⟨mask, slots⟩, by simpa [Payload.fits] using hn, rfl⟩
  | [], h | [_], h => simp at h; omega

/-- A record that fits decodes to the command of its opcode byte (R87). -/
theorem decode_encodeRecord (op : Byte) (h : p.fits cfg = true) :
    decode cfg (encodeRecord op p) = .ok (commandOf cfg op p) := by
  have hn : p.slots.length = cfg.nAx := by simpa [Payload.fits] using h
  rw [encodeRecord, decode, if_pos (by rw [flatMap_encodeSlot_length, hn]), decodeSlots_flatMap_encodeSlot]

/-- Bytes of another length are refused (R80). -/
theorem decode_of_length_ne (h : bytes.length ≠ cfg.cmdLen) :
    decode cfg bytes = .error (.recordLength bytes.length) := by
  rw [Cfg.cmdLen] at h
  match bytes, h with
  | op :: mask :: rest, h => exact if_neg (by simp only [List.length_cons] at h; omega)
  | [], _ | [_], _ => rfl

/-- What decodes: the records that fit, each to the command of its opcode byte. -/
theorem decode_ok_iff {i : Instr} : decode cfg bytes = .ok i ↔
    ∃ op p, p.fits cfg = true ∧ bytes = encodeRecord op p ∧ i = commandOf cfg op p := by
  constructor
  · intro hd
    by_cases hl : bytes.length = cfg.cmdLen
    · obtain ⟨op, p, hf, rfl⟩ := exists_record_of_length hl
      rw [decode_encodeRecord op hf] at hd
      exact ⟨op, p, hf, rfl, (Except.ok.inj hd).symm⟩
    · rw [decode_of_length_ne hl] at hd
      exact absurd hd (by simp)
  · rintro ⟨op, p, hf, rfl, rfl⟩
    exact decode_encodeRecord op hf

/-- Byte `j` of slot `k` stands `4k + j` bytes after the first slot. -/
theorem getElem?_flatMap_encodeSlot {slots : List Slot} {k : Nat} {sl : Slot} (h : slots[k]? = some sl) {j : Nat}
    (hj : j < 4) : (slots.flatMap encodeSlot)[4 * k + j]? = (encodeSlot sl)[j]? := by
  induction slots generalizing k with
  | nil => simp at h
  | cons first slots ih =>
    rw [List.flatMap_cons]
    cases k with
    | zero =>
      obtain rfl : first = sl := by simpa using h
      rw [List.getElem?_append_left (by rw [encodeSlot_length]; omega), Nat.mul_zero, Nat.zero_add]
    | succ k =>
      rw [List.getElem?_append_right (by rw [encodeSlot_length]; omega), encodeSlot_length,
        show 4 * (k + 1) + j - 4 = 4 * k + j by omega]
      exact ih (by simpa using h)

/-- Byte `j` of slot `k` stands at offset `2 + 4k + j` of the record (R81). -/
theorem encodeRecord_slot_byte (op : Byte) {k : Nat} {sl : Slot} (h : p.slots[k]? = some sl) {j off : Nat} (hj : j < 4)
    (ho : off = 4 * k + j + 2) : (encodeRecord op p)[off]? = (encodeSlot sl)[j]? := by
  rw [ho, encodeRecord, List.getElem?_cons_succ, List.getElem?_cons_succ]
  exact getElem?_flatMap_encodeSlot h hj

end Records

/-- Settles O8: a well-formed command is the command of its opcode byte and content, to which its record decodes. -/
theorem decodeOfEncodeIsTheCommand : Obligations.DecodeOfEncodeIsTheCommand := by
  unfold Obligations.DecodeOfEncodeIsTheCommand
  exact fun _ _ _ h hw he => decode_ok_iff.mpr (eq_commandOf_of_encode h hw he)

/-- Settles O9: what decodes is a record that fits, and the command of its opcode byte keeps byte and content. -/
theorem encodeOfDecodeIsTheRecord : Obligations.EncodeOfDecodeIsTheRecord := by
  unfold Obligations.EncodeOfDecodeIsTheRecord
  intro cfg i bytes hd
  obtain ⟨op, p, hf, rfl, rfl⟩ := decode_ok_iff.mp hd
  exact ⟨(wellFormed_commandOf cfg op p).trans hf, encode_commandOf cfg op p⟩

/-- Settles O10: bytes of the one length are a record that fits. -/
theorem onlyTheLengthIsRejected : Obligations.OnlyTheLengthIsRejected := by
  unfold Obligations.OnlyTheLengthIsRejected
  refine fun cfg bytes => ⟨fun hl => ?_, decode_of_length_ne⟩
  obtain ⟨op, p, hf, rfl⟩ := exists_record_of_length hl
  exact ⟨_, decode_encodeRecord op hf⟩

/-- Settles O11: a record decodes to the command of its opcode byte, case by case. -/
theorem opcodeByteSelectsTheOperation : Obligations.OpcodeByteSelectsTheOperation := by
  unfold Obligations.OpcodeByteSelectsTheOperation
  refine ⟨fun cfg p h hf => ⟨Cfg.opcodes_nodup_99 h, ?get, ?set, ?reset, ?boot, fun op hg hs hr hb => ?unrecognized⟩,
    rfl, rfl, rfl, rfl⟩
  all_goals rw [decode_encodeRecord _ hf]
  case get => rw [commandOf_opGet h]
  case set => rw [commandOf_opSet h]
  case reset => rw [commandOf_opReset]
  case boot => rw [commandOf_opBoot h]
  case unrecognized => rw [commandOf_unrecognized (by simp [Cfg.recognises, hg, hs, hr, hb])]

/-- Settles O12: the four bytes of a slot, at the offset of the slot. -/
theorem recordFieldsStandAtTheirOffsets : Obligations.RecordFieldsStandAtTheirOffsets := by
  unfold Obligations.RecordFieldsStandAtTheirOffsets
  refine fun cfg op p hf => ⟨encodeRecord_length_of_fits op hf, rfl, rfl, fun k sl hk => ⟨?_, ?_, ?_, ?_⟩⟩
  · rw [encodeRecord_slot_byte op hk (j := 0) (by omega) (by omega)]
    exact congrArg some (Machine.lowByte_toNat sl.freq)
  · rw [encodeRecord_slot_byte op hk (j := 1) (by omega) (by omega)]
    exact congrArg some (Machine.highByte_toNat sl.freq)
  · rw [encodeRecord_slot_byte op hk (j := 2) (by omega) (by omega)]
    exact congrArg some (Machine.lowByte_toNat sl.pos)
  · rw [encodeRecord_slot_byte op hk (j := 3) (by omega) (by omega)]
    exact congrArg some (Machine.highByte_toNat sl.pos)

/-- Settles O13: five closed evaluations of the decoder. -/
theorem writtenOutRecordsDecode : Obligations.WrittenOutRecordsDecode := by
  unfold Obligations.WrittenOutRecordsDecode
  decide

end Sys2Proof

namespace Sys2Proof.Machine

/-! ## The record on the port and the command it decodes to (R86, R146) -/

section Accept

variable {s : State}

/-- Validity and phase IDLE pass the first two checks of ACCEPT and of every command. -/
theorem checks_of_idle (hv : s.valid = true) (hi : s.fgPc = .idle) (r : Result) :
    whenValid s (whenEnabled s.isIdle s r) = r := by
  rw [whenValid_of_valid hv, State.isIdle, decide_eq_true hi, whenEnabled_true]

theorem whenRecord_of_length_ne {bytes : List Byte} (h : bytes.length ≠ s.cfg.cmdLen) (r : Result) :
    whenRecord bytes s r = .refused (.recordLength bytes.length) :=
  if_neg h

/-- An idle foreground asks only for the length of the record on the port. -/
theorem exec_accept_of_record (hv : s.valid = true) (hi : s.fgPc = .idle) {bytes : List Byte}
    (hp : s.cmdPort = some bytes) : exec .accept s = whenRecord bytes s (.next (acceptRecord bytes s)) := by
  refine (checks_of_idle hv hi _).trans ?_
  rw [hp]

/-- An idle foreground asks only for the length of a command's record. -/
theorem exec_command_of_idle (hv : s.valid = true) (hi : s.fgPc = .idle) (op : Byte) (p : Payload) :
    ∀ i ∈ [Instr.getState p, .setState p, .resetReq p, .bootReq p, .unrecognized op p],
      ∃ op' t, exec i s = whenRecord (encodeRecord op' p) s (.next t) := by
  simp only [List.forall_mem_cons]
  exact ⟨⟨_, _, checks_of_idle hv hi _⟩, ⟨_, _, checks_of_idle hv hi _⟩, ⟨_, _, checks_of_idle hv hi _⟩,
    ⟨_, _, checks_of_idle hv hi _⟩, ⟨_, _, checks_of_idle hv hi _⟩, by simp⟩

/-- The command of an opcode byte does on a record what ACCEPT does on it: both make the choice of R87. -/
theorem exec_commandOf_of_idle (hv : s.valid = true) (hi : s.fgPc = .idle) (op : Byte) (p : Payload) :
    exec (commandOf s.cfg op p) s =
      whenRecord (encodeRecord op p) s (.next (acceptRecord (encodeRecord op p) s)) := by
  have hhead : (encodeRecord op p).headD 0#8 = op := rfl
  unfold commandOf acceptRecord
  rw [hhead]
  obtain ⟨hk, rfl⟩ | ⟨hk, rfl⟩ | ⟨hk, rfl⟩ | ⟨hk, rfl⟩ | ⟨hk, -⟩ := opKind_cases s.cfg op <;> rw [hk] <;>
    exact checks_of_idle hv hi _

theorem State.fetched_iff {i : Instr} :
    s.fetched = some i ↔ ∃ bytes, s.cmdPort = some bytes ∧ decode s.cfg bytes = .ok i := by
  unfold State.fetched
  cases s.cmdPort with
  | none => simp
  | some bytes => cases hd : decode s.cfg bytes <;> simp [hd]

/-- ACCEPT is the command that the record on the port decodes to. -/
theorem exec_accept_of_fetched {i : Instr} (hv : s.valid = true) (hi : s.fgPc = .idle) (hf : s.fetched = some i) :
    exec .accept s = exec i s := by
  obtain ⟨bytes, hp, hd⟩ := State.fetched_iff.mp hf
  obtain ⟨op, p, -, rfl, rfl⟩ := decode_ok_iff.mp hd
  rw [exec_accept_of_record hv hi hp, exec_commandOf_of_idle hv hi]

theorem foregroundStep_of_idle (hi : s.fgPc = .idle) : foregroundStep s = exec .accept s := by
  rw [foregroundStep, hi]

/-- The turn of an idle foreground is the command that the record on the port decodes to. -/
theorem step_of_fetched {rest : List Input} {i : Instr} (hv : s.valid = true) (hin : s.inputs = .foreground :: rest)
    (hi : s.fgPc = .idle) (hf : s.fetched = some i) :
    step s = exec i ({ s with inputs := rest } : State).startTurn := by
  have hturned : s.turned = ({ s with inputs := rest } : State).startTurn := by rw [State.turned, hin, List.tail_cons]
  rw [step_foreground hv hin, foregroundStep_of_idle (s := s.turned) hi,
    exec_accept_of_fetched (s := s.turned) hv hi hf, hturned]

/-- Placing a record keeps the state valid: phase IDLE exists, and the port and the inputs are not checked. -/
theorem State.withFetchWord_valid (hv : s.valid = true) (nbits w : Nat) : (s.withFetchWord nbits w).valid = true :=
  State.valid_of_parts hv rfl rfl rfl (fun _ hc => State.valid_psc hv hc) rfl rfl rfl rfl
    (show s.buffersFit = true from State.valid_buffersFit hv)

end Accept

/-- Settles O35: ACCEPT and the decoded command make the same choice on the same record. -/
theorem acceptRunsTheDecodedCommand : Obligations.AcceptRunsTheDecodedCommand := by
  unfold Obligations.AcceptRunsTheDecodedCommand
  exact fun _ _ => exec_accept_of_fetched

/-- Settles O32: without a record or in another phase ACCEPT is not enabled; an idle foreground checks the length. -/
theorem acceptWaitsOrRefuses : Obligations.AcceptWaitsOrRefuses := by
  unfold Obligations.AcceptWaitsOrRefuses
  refine fun s hv => ⟨fun hw => exec_accept_next.mpr ⟨hv, .inr ⟨hw.imp_left decide_eq_false, rfl⟩⟩,
    fun bytes hi hp hl => ?_⟩
  rw [exec_accept_of_record hv hi hp, whenRecord_of_length_ne hl]

/-- Settles O34: the length of a command's record is that of its slots. -/
theorem commandsOfAnotherLengthAreRefused : Obligations.CommandsOfAnotherLengthAreRefused := by
  unfold Obligations.CommandsOfAnotherLengthAreRefused
  intro s op p hv hi hl i hmem
  obtain ⟨op', t, he⟩ := exec_command_of_idle hv hi op p i hmem
  have hne : (encodeRecord op' p).length ≠ s.cfg.cmdLen := by rw [encodeRecord_length, Cfg.cmdLen]; omega
  rw [he, whenRecord_of_length_ne hne, encodeRecord_length]

/-- Settles O36: the record that `withFetchWord` places is one more record on the port. -/
theorem stepRunsTheDecodedCommand : Obligations.StepRunsTheDecodedCommand := by
  unfold Obligations.StepRunsTheDecodedCommand
  exact ⟨fun _ _ _ => step_of_fetched, fun s nbits w i hv hd =>
    step_of_fetched (State.withFetchWord_valid hv nbits w) rfl rfl (State.fetched_iff.mpr ⟨_, rfl, hd⟩)⟩

/-! ## What the batch reads of the record (R82, R152) -/

/-- An axis table is its length and its records. -/
theorem State.ax_ext {s t : State} (hl : s.ax.length = t.ax.length) (h : ∀ i, s.axis i = t.axis i) : s.ax = t.ax := by
  refine List.ext_getElem hl fun i hs ht => ?_
  simpa [State.axis, List.getD_eq_getElem?_getD, hs, ht] using h i

/-- The batch leaves an axis table of the size of the configuration. -/
theorem batchAll_ax_length {s : State} (h : s.valid = true) : (batchAll s).ax.length = s.cfg.nAx := by
  obtain ⟨hl, -⟩ := State.valid_tables (batchAll_valid h)
  rw [hl, batchAll_frame]

/-- Settles O44: at each axis both batches take the same branch, with the same request. -/
theorem unselectedSlotsHaveNoInfluence : Obligations.UnselectedSlotsHaveNoInfluence := by
  unfold Obligations.UnselectedSlotsHaveNoInfluence
  intro s t s' t' hcfg hax hph hph' hagree he he'
  obtain ⟨hv, ⟨-, rfl⟩ | ⟨hne, -⟩⟩ := exec_batch_next.mp he
  case inr => exact absurd hph hne
  obtain ⟨hv', ⟨-, rfl⟩ | ⟨hne, -⟩⟩ := exec_batch_next.mp he'
  case inr => exact absurd hph' hne
  refine State.ax_ext (by rw [batchAll_ax_length hv, batchAll_ax_length hv', hcfg]) fun i => ?_
  have haxis : s'.axis i = s.axis i := by rw [State.axis, State.axis, hax]
  by_cases hsel : i < s.cfg.nAx ∧ selects (s.cmd.read 1) i = true
  · obtain ⟨hi, hs⟩ := hsel
    obtain ⟨hmask, hslot⟩ := hagree i hi
    obtain ⟨hfreq, hpos⟩ := hslot hs
    rw [batchAll_axis_selected hv hi hs, batchAll_axis_selected hv' (hcfg ▸ hi) (hmask.trans hs), hcfg, haxis,
      hfreq, hpos]
  · have hs (hi : i < s.cfg.nAx) : selects (s.cmd.read 1) i = false := by simpa [hi] using hsel
    rw [batchAll_axis_unselected hv hs, batchAll_axis_unselected hv' ?unselected, haxis]
    case unselected => exact fun hi => (hagree i (hcfg ▸ hi)).1.trans (hs (hcfg ▸ hi))

end Sys2Proof.Machine

/-! PROOFS. The statements of 40_derivation.md: the pair DERIVE writes and its result (R101, R102), and the bounds of the
achieved frequency (R109). -/

namespace Sys2Proof

/-- WF3 and WF4 make the derivation defined on every channel of an accepted configuration. -/
theorem Cfg.derivable_of_accepted {cfg : Cfg} (h : cfg.accepted = true) {c : Nat} (hc : c < cfg.nAx) :
    (cfg.channel c).Derivable := by
  obtain ⟨hne, hasc, hpos⟩ := Cfg.ratios_spec h hc
  obtain ⟨hs, -⟩ := Cfg.counter_spec h hc
  exact ⟨hne, hasc, hpos, hs⟩

end Sys2Proof

namespace Sys2Proof.Machine

/-! ## The chosen pair in the terms of the ratio list (R103, R104, R106) -/

theorem getElem?_ratios_eq_some_iff {ch : ChannelCfg} {k p : Nat} :
    ch.ratios[k]? = some p ↔ k < ch.ratios.length ∧ ratioAt ch k = p := by
  by_cases hk : k < ch.ratios.length <;> simp [ratioAt, List.getD_eq_getElem?_getD, hk]

section ChosenPair

variable {fClk f : Nat} {ch : ChannelCfg} (hd : ch.Derivable)
include hd

theorem getElem?_ratios_derivePsc :
    ch.ratios[derivePsc fClk ch f]? = some (ratioAt ch (derivePsc fClk ch f)) :=
  getElem?_ratios_eq_some_iff.mpr ⟨(derivePsc_spec fClk ch f hd.nonempty).1, rfl⟩

theorem one_le_ratioAt_derivePsc : 1 ≤ ratioAt ch (derivePsc fClk ch f) :=
  hd.ratioAt_pos (derivePsc_spec fClk ch f hd.nonempty).1

theorem reloadAt_derivePsc (hf : 1 ≤ f) :
    reloadAt fClk ch f (derivePsc fClk ch f) = fClk / (ch.scale * f * ratioAt ch (derivePsc fClk ch f)) :=
  reloadAt_eq fClk hd.scale_pos hf (one_le_ratioAt_derivePsc hd)

theorem deriveTop_eq_min (hf : 1 ≤ f) :
    deriveTop fClk ch f = min (fClk / (ch.scale * f * ratioAt ch (derivePsc fClk ch f))) ch.cmax := by
  rw [deriveTop, reloadAt_derivePsc hd hf]

/-- A ratio the search has passed does not fit the counter (R103). -/
theorem cmax_lt_div_of_lt_derivePsc (hf : 1 ≤ f) {j q : Nat} (hj : j < derivePsc fClk ch f)
    (hq : ch.ratios[j]? = some q) : ch.cmax < fClk / (ch.scale * f * q) := by
  obtain ⟨hlt, rfl⟩ := getElem?_ratios_eq_some_iff.mp hq
  obtain ⟨-, hskip, -⟩ := derivePsc_spec fClk ch f hd.nonempty
  exact (hskip j hj).trans_eq (reloadAt_eq fClk hd.scale_pos hf (hd.ratioAt_pos hlt))

/-- The search stops where the reload value fits, or at the last ratio (R103). -/
theorem div_le_cmax_or_last (hf : 1 ≤ f) :
    fClk / (ch.scale * f * ratioAt ch (derivePsc fClk ch f)) ≤ ch.cmax ∨
      derivePsc fClk ch f + 1 = ch.ratios.length := by
  obtain ⟨-, -, hfit⟩ := derivePsc_spec fClk ch f hd.nonempty
  rwa [reloadAt_derivePsc hd hf] at hfit

/-- With a reload value of at least 1 the division of R106 is defined. -/
theorem deriveAchieved_eq_div (htop : 1 ≤ deriveTop fClk ch f) :
    deriveAchieved fClk ch f =
      fClk / (ch.scale * deriveTop fClk ch f * ratioAt ch (derivePsc fClk ch f)) :=
  divFloor_eq (Nat.mul_pos (Nat.mul_pos hd.scale_pos htop) (one_le_ratioAt_derivePsc hd))

/-- The last ratio is the largest, since they ascend (WF3). -/
theorem le_ratioAt_of_last {k : Nat} (hk : k + 1 = ch.ratios.length) : ∀ q ∈ ch.ratios, q ≤ ratioAt ch k := by
  intro q hq
  obtain ⟨j, hj⟩ := List.mem_iff_getElem?.mp hq
  obtain ⟨hlt, rfl⟩ := getElem?_ratios_eq_some_iff.mp hj
  obtain rfl | hjk := (show j ≤ k by omega).eq_or_lt
  · exact le_rfl
  · exact (ratioAt_lt hd.ascending hjk (by omega)).le

/-- Unclamped, the request lies between the frequencies of the reload value and of the next one (R109 (b)). -/
theorem request_between_of_unclamped (hf : 1 ≤ f)
    (hfit : fClk / (ch.scale * f * ratioAt ch (derivePsc fClk ch f)) ≤ ch.cmax) :
    f * (ch.scale * ratioAt ch (derivePsc fClk ch f) * deriveTop fClk ch f) ≤ fClk ∧
      fClk < f * (ch.scale * ratioAt ch (derivePsc fClk ch f) * (deriveTop fClk ch f + 1)) := by
  have hassoc (t : Nat) : f * (ch.scale * ratioAt ch (derivePsc fClk ch f) * t) =
      ch.scale * f * ratioAt ch (derivePsc fClk ch f) * t := by ring
  have hpos : 0 < ch.scale * f * ratioAt ch (derivePsc fClk ch f) :=
    Nat.mul_pos (Nat.mul_pos hd.scale_pos hf) (one_le_ratioAt_derivePsc hd)
  rw [hassoc, hassoc, deriveTop_eq_min hd hf, min_eq_left hfit]
  exact ⟨Nat.mul_div_le _ _, Nat.lt_mul_div_succ _ hpos⟩

/-- Clamped, the pair is the largest ratio and the counter's maximum (R109 (c)). -/
theorem pair_of_clamped (hf : 1 ≤ f)
    (hclamp : ch.cmax < fClk / (ch.scale * f * ratioAt ch (derivePsc fClk ch f))) :
    (∀ q ∈ ch.ratios, q ≤ ratioAt ch (derivePsc fClk ch f)) ∧ deriveTop fClk ch f = ch.cmax := by
  have hlast := (div_le_cmax_or_last hd hf).resolve_left hclamp.not_ge
  refine ⟨le_ratioAt_of_last hd hlast, ?_⟩
  rw [deriveTop_eq_min hd hf, min_eq_right hclamp.le]

end ChosenPair

/-! ## What DERIVE leaves in its channel, and its result (R101, R102) -/

/-- DERIVE disables its channel, whatever the frequency (R101). -/
theorem deriveChannel_disables {s : State} {c : Nat} (f : Nat) (h : c < s.ch.length) :
    ((deriveChannel c f s).channel c).isOn = false ∧
      ((deriveChannel c f s).channel c).ctl = (s.channel c).ctl &&& ~~~(s.cfg.channel c).csMask := by
  by_cases hf : f = 0
  · subst hf
    rw [deriveChannel_zero, disableChannel_self _ _ h]
    exact ⟨rfl, rfl⟩
  · rw [deriveChannel_self _ _ hf h]
    exact ⟨rfl, rfl⟩

@[simp] theorem deriveResult_zero (cfg : Cfg) (c : Nat) : deriveResult cfg c 0 = 0 := if_pos rfl

theorem deriveResult_of_ne_zero (cfg : Cfg) (c : Nat) {f : Nat} (hf : f ≠ 0) :
    deriveResult cfg c f = deriveAchieved cfg.fClk (cfg.channel c) f := if_neg hf

/-- Settles O15: a zero request leaves what DISABLE leaves; any other leaves the pair of the search. -/
theorem deriveWritesTheFirstFittingPair : Obligations.DeriveWritesTheFirstFittingPair := by
  unfold Obligations.DeriveWritesTheFirstFittingPair
  intro s c f hv hc
  have hacc := State.valid_accepted hv
  have hd := Cfg.derivable_of_accepted hacc hc
  obtain ⟨-, hch, -⟩ := State.valid_tables hv
  have hl : c < s.ch.length := hch ▸ hc
  obtain ⟨hoff, hctl⟩ := deriveChannel_disables f.toNat hl
  refine ⟨_, exec_derive_next.mpr ⟨hv, hc, rfl⟩, deriveChannel_frame c f.toNat s,
    fun d hne => deriveChannel_ne _ _ _ _ hne.symm, hoff, hctl, fun h0 => ?zero, fun hf => ?nonzero⟩
  case zero =>
    rw [h0, deriveChannel_zero, disableChannel_self _ _ hl]
    exact ⟨rfl, rfl, deriveResult_zero _ _⟩
  case nonzero =>
    have hf1 := Nat.pos_of_ne_zero hf
    rw [deriveChannel_self _ _ hf hl, Cfg.toNat_ofNat_deriveTop hacc hc, deriveResult_of_ne_zero _ _ hf]
    exact ⟨_, getElem?_ratios_derivePsc hd, fun j q => cmax_lt_div_of_lt_derivePsc hd hf1, div_le_cmax_or_last hd hf1,
      deriveTop_eq_min hd hf1, deriveAchieved_eq_div hd⟩

/-- Settles O16: the writes of DERIVE of 0 are those of DISABLE. -/
theorem deriveOfZeroIsDisable : Obligations.DeriveOfZeroIsDisable := by
  unfold Obligations.DeriveOfZeroIsDisable
  refine fun s c => ⟨rfl, deriveResult_zero _ _, fun hv hc => ?_⟩
  obtain ⟨-, hch, -⟩ := State.valid_tables hv
  refine ⟨disableChannel c s, exec_derive_next.mpr ⟨hv, hc, rfl⟩, ?_⟩
  rw [disableChannel_self _ _ (hch ▸ hc)]
  exact ⟨rfl, rfl, rfl⟩

/-! ## The achieved frequency (R109) -/

/-- Settles O17: WF7 bounds the pair and the result; the rest is R103 and the division of R104. -/
theorem achievedFrequencyBounds : Obligations.AchievedFrequencyBounds := by
  unfold Obligations.AchievedFrequencyBounds
  intro cfg i f hacc hi hf hfm
  have hd := Cfg.derivable_of_accepted hacc (Cfg.chan_lt hacc hi)
  obtain ⟨htop, hach⟩ := Cfg.request_fits hacc hi hf hfm
  rw [deriveResult_of_ne_zero _ _ (Nat.ne_of_gt hf)]
  refine ⟨_, getElem?_ratios_derivePsc hd, htop, deriveTop_le _ _ _, le_deriveAchieved hd hf htop, hach,
    request_between_of_unclamped hd hf, fun hclamp => ?clamped⟩
  obtain ⟨hmax, heq⟩ := pair_of_clamped hd hf hclamp
  exact ⟨hmax, heq, by rw [deriveAchieved_eq_div hd htop, heq]⟩

end Sys2Proof.Machine

/-! PROOFS. The statements of 41_channel_onoff.md: ENABLE and DISABLE on the channel record (R121, R123), the control bits
outside the clock-select field (R122, R126), and DISABLE of a channel that is off (R124). -/

namespace Sys2Proof.Machine

/-! ## ENABLE and DISABLE touch the channel table alone, and the outside sees their writes (R126) -/

theorem enableChannel_frame (c : Nat) (s : State) :
    enableChannel c s = { s with ch := (enableChannel c s).ch, outputs := (enableChannel c s).outputs } := rfl

theorem disableChannel_frame (c : Nat) (s : State) :
    disableChannel c s = { s with ch := (disableChannel c s).ch, outputs := (disableChannel c s).outputs } := rfl

/-! ## A write of the value already there (R124) -/

theorem State.output_ctl_of_eq {s : State} {c : Nat} {b : Byte} (h : b = (s.channel c).ctl) :
    s.output (.ctl c b) = { s with outputs := s.outputs ++ [.ctl c b] } := by
  have hsame : s.apply (.ctl c b) = s := by
    subst h
    exact setChannel_channel s c
  rw [State.output, hsame]

theorem State.setOn_of_eq {s : State} {c : Nat} {b : Bool} (h : b = (s.channel c).isOn) : s.setOn c b = s := by
  subst h
  exact setChannel_channel s c

/-- A byte whose field is 0 is unchanged by clearing the field. -/
theorem clearField_of_field_zero {x m : Byte} (h : x &&& m = 0#8) : x &&& ~~~m = x :=
  and_field_of_inside (by simpa using h)

/-- DISABLE of a channel that is off, its field clear, shows its write and changes no register (R124). -/
theorem disableChannel_of_off {s : State} {c : Nat} (hoff : (s.channel c).isOn = false) (hfield : s.clockField c = 0#8) :
    disableChannel c s = { s with outputs := (disableChannel c s).outputs } := by
  have hctl : (s.channel c).ctl &&& ~~~(s.cfg.channel c).csMask = (s.channel c).ctl := clearField_of_field_zero hfield
  rw [disableChannel_outputs, disableChannel, State.output_ctl_of_eq hctl]
  exact State.setOn_of_eq hoff.symm

/-! ## The clock-select field and the bits outside it (R121 to R124) -/

/-- Storing a code of the field leaves the bits outside it (R122). -/
theorem or_inside_and_not {x code m : Byte} (h : code &&& ~~~m = 0#8) : (x ||| code) &&& ~~~m = x &&& ~~~m := by
  rw [BitVec.and_or_distrib_right, h, BitVec.or_zero]

section Field

variable {s : State} {c : Nat}

theorem disableChannel_clockField (h : c < s.ch.length) : (disableChannel c s).clockField c = 0#8 := by
  rw [State.clockField, disableChannel_self _ _ h]
  exact clearField_and _ _

/-- ENABLE of a channel with a clear field leaves the code of its index there (R121). -/
theorem enableChannel_clockField (hv : s.valid = true) (hc : c < s.cfg.nAx) (hfield : s.clockField c = 0#8) :
    (enableChannel c s).clockField c = csCodeAt (s.cfg.channel c) (s.channel c).psc := by
  obtain ⟨-, hch, -⟩ := State.valid_tables hv
  obtain ⟨-, hin⟩ := Cfg.csCodeAt_spec (State.valid_accepted hv) hc (State.valid_psc hv hc)
  rw [State.clockField] at hfield ⊢
  rw [enableChannel_self _ _ (hch ▸ hc), enableChannel_cfg, BitVec.and_or_distrib_right, hfield, BitVec.zero_or,
    and_field_of_inside hin]

theorem enableChannel_keeps_other_bits (hv : s.valid = true) (hc : c < s.cfg.nAx) :
    ((enableChannel c s).channel c).ctl &&& ~~~(s.cfg.channel c).csMask =
      (s.channel c).ctl &&& ~~~(s.cfg.channel c).csMask := by
  obtain ⟨-, hch, -⟩ := State.valid_tables hv
  obtain ⟨-, hin⟩ := Cfg.csCodeAt_spec (State.valid_accepted hv) hc (State.valid_psc hv hc)
  rw [enableChannel_self _ _ (hch ▸ hc)]
  exact or_inside_and_not hin

theorem disableChannel_keeps_other_bits (h : c < s.ch.length) :
    ((disableChannel c s).channel c).ctl &&& ~~~(s.cfg.channel c).csMask =
      (s.channel c).ctl &&& ~~~(s.cfg.channel c).csMask := by
  rw [disableChannel_self _ _ h]
  exact clearField_and_not _ _

end Field

/-- Settles O18: the channel record ENABLE leaves, with the code WF5 gives the current index. -/
theorem enableOrsTheCode : Obligations.EnableOrsTheCode := by
  unfold Obligations.EnableOrsTheCode
  intro s c hv hc
  obtain ⟨-, hch, -⟩ := State.valid_tables hv
  refine ⟨_, _, exec_enable_next.mpr ⟨hv, hc, rfl⟩,
    Cfg.csCode_getElem? (State.valid_accepted hv) hc (State.valid_psc hv hc), ?_⟩
  rw [enableChannel_self _ _ (hch ▸ hc)]
  exact ⟨rfl, rfl, rfl, rfl, fun d hd => enableChannel_ne _ _ _ hd.symm, enableChannel_frame c s⟩

/-- Settles O19: the channel record DISABLE leaves. -/
theorem disableClearsTheField : Obligations.DisableClearsTheField := by
  unfold Obligations.DisableClearsTheField
  intro s c hv hc
  obtain ⟨-, hch, -⟩ := State.valid_tables hv
  refine ⟨_, exec_disable_next.mpr ⟨hv, hc, rfl⟩, ?_⟩
  rw [disableChannel_self _ _ (hch ▸ hc)]
  exact ⟨rfl, rfl, rfl, rfl, fun d hd => disableChannel_ne _ _ _ hd.symm, disableChannel_frame c s⟩

/-- Settles O20: a code lies inside the field (WF5), and DISABLE clears nothing but the field. -/
theorem unrelatedControlBitsArePreserved : Obligations.UnrelatedControlBitsArePreserved := by
  unfold Obligations.UnrelatedControlBitsArePreserved
  rintro s t c hv hc (he | hd)
  · obtain ⟨-, -, rfl⟩ := exec_enable_next.mp he
    exact enableChannel_keeps_other_bits hv hc
  · obtain ⟨-, -, rfl⟩ := exec_disable_next.mp hd
    obtain ⟨-, hch, -⟩ := State.valid_tables hv
    exact disableChannel_keeps_other_bits (hch ▸ hc)

/-- Settles O21: DISABLE leaves a channel off with its field clear, where DISABLE stores what is there and ENABLE stores
the code of the index kept. -/
theorem disableIsIdempotent : Obligations.DisableIsIdempotent := by
  unfold Obligations.DisableIsIdempotent
  refine fun s t c hv hc => ⟨fun hoff hfield => ?off, fun hd => ?after⟩
  case off => exact ⟨_, exec_disable_next.mpr ⟨hv, hc, rfl⟩, disableChannel_of_off hoff hfield⟩
  case after =>
    obtain ⟨-, -, rfl⟩ := exec_disable_next.mp hd
    obtain ⟨-, hch, -⟩ := State.valid_tables hv
    have hl : c < s.ch.length := hch ▸ hc
    have hself := disableChannel_self s c hl
    have hoff : ((disableChannel c s).channel c).isOn = false := by rw [hself]
    have hpsc : ((disableChannel c s).channel c).psc = (s.channel c).psc := by rw [hself]
    have htop : ((disableChannel c s).channel c).top = (s.channel c).top := by rw [hself]
    have hfield := disableChannel_clockField hl
    have hv' := disableChannel_valid hv c
    have hcode := enableChannel_clockField hv' hc hfield
    rw [hpsc] at hcode
    exact ⟨⟨_, exec_disable_next.mpr ⟨hv', hc, rfl⟩, disableChannel_of_off hoff hfield⟩,
      disableChannel_keeps_other_bits hl, hpsc, htop, _, _, exec_enable_next.mpr ⟨hv', hc, rfl⟩,
      Cfg.csCode_getElem? (State.valid_accepted hv) hc (State.valid_psc hv hc), hcode⟩

end Sys2Proof.Machine

/-! PROOFS. The statements of 42_position_tracker.md: the latch of an overflow event (R131), the tracker step with its
auto-stop (R132 to R134), and the leg of a running axis (R136, R138, R140). -/

namespace Sys2Proof.Machine

/-! ## The latch of an event (R131) -/

section Latch

variable {s : State} {i : Nat}

/-- A latched event writes the latches alone (R131, R210). -/
theorem latchEvent_frame (i : Nat) (s : State) :
    latchEvent i s = { s with pend := (latchEvent i s).pend, overrun := (latchEvent i s).overrun } := by
  unfold latchEvent
  split <;> rfl

@[simp] theorem latchEvent_cfg (i : Nat) (s : State) : (latchEvent i s).cfg = s.cfg := by
  rw [latchEvent_frame]

@[simp] theorem latchEvent_ie (i : Nat) (s : State) : (latchEvent i s).ie = s.ie := by
  rw [latchEvent_frame]

@[simp] theorem latchEvent_axis (i : Nat) (s : State) (j : Nat) : (latchEvent i s).axis j = s.axis j := by
  rw [latchEvent_frame]; rfl

@[simp] theorem latchEvent_channel (i : Nat) (s : State) (c : Nat) : (latchEvent i s).channel c = s.channel c := by
  rw [latchEvent_frame]; rfl

theorem latchEvent_pending_self (h : i < s.pend.length) : (latchEvent i s).pending i = true := by
  unfold latchEvent
  split
  · assumption
  · exact pending_setPending_self _ _ _ h

/-- The overrun bit records that the latch was set already (R131). -/
theorem latchEvent_overran_self (h : i < s.overrun.length) :
    (latchEvent i s).overran i = (s.overran i || s.pending i) := by
  unfold latchEvent
  split
  · next hp => rw [overran_setOverrun_self _ _ h, hp, Bool.or_true]
  · next hp => simp [hp]

theorem latchEvent_ne {j : Nat} (hij : i ≠ j) :
    (latchEvent i s).pending j = s.pending j ∧ (latchEvent i s).overran j = s.overran j := by
  unfold latchEvent
  split
  · exact ⟨rfl, overran_setOverrun_ne _ _ _ hij⟩
  · exact ⟨pending_setPending_ne _ _ _ _ hij, rfl⟩

variable (hv : s.valid = true) (hi : i < s.cfg.nAx)
include hv hi

/-- The entries of an axis and of its channel lie in the tables (R62). -/
theorem State.lt_tables :
    i < s.ax.length ∧ s.cfg.chan i < s.ch.length ∧ i < s.dirline.length ∧ i < s.pend.length ∧
      i < s.overrun.length := by
  obtain ⟨hax, hch, hline, hpend, hover⟩ := State.valid_tables hv
  exact ⟨hax ▸ hi, hch ▸ Cfg.chan_lt (State.valid_accepted hv) hi, hline ▸ hi, hpend ▸ hi, hover ▸ hi⟩

theorem exec_ovf_spurious : exec (.ovf (s.cfg.chan i) false) s = .next s :=
  exec_ovf_next.mpr ⟨hv, Cfg.chan_lt (State.valid_accepted hv) hi, .inl ⟨rfl, rfl⟩⟩

/-- A genuine event of a clocked channel is latched for the axis bound to it (R131, R208). -/
theorem exec_ovf_genuine (hclk : s.clocked (s.cfg.chan i) = true) :
    exec (.ovf (s.cfg.chan i) true) s = .next (latchEvent i s) := by
  have hacc := State.valid_accepted hv
  refine exec_ovf_next.mpr ⟨hv, Cfg.chan_lt hacc hi, .inl ⟨hclk, ?_⟩⟩
  rw [overflowEvent, if_pos rfl, Cfg.boundAxis_chan hacc hi]

theorem exec_track_of_pending (hp : s.pending i = true) (hie : s.ie = true) :
    exec (.track i) s = .next (trackAxis i s) :=
  exec_track_next.mpr ⟨hv, hi, .inl ⟨by simp [trackEnabled, hp, hie], rfl⟩⟩

end Latch

/-- Settles O24: a genuine event is latched for the bound axis, and the latch branches on its own bit. -/
theorem genuineEventIsLatchedOneDeep : Obligations.GenuineEventIsLatchedOneDeep := by
  unfold Obligations.GenuineEventIsLatchedOneDeep
  intro s i hv hi
  obtain ⟨-, -, -, hp, ho⟩ := State.lt_tables hv hi
  exact ⟨exec_ovf_spurious hv hi, fun hclk => ⟨_, exec_ovf_genuine hv hi hclk, latchEvent_pending_self hp,
    latchEvent_overran_self ho, fun j hj => latchEvent_ne hj.symm, latchEvent_frame i s⟩⟩

/-! ## The tracker step (R132 to R134) -/

/-- `wrap16` of a sum that leaves the range by at most one step (R12). -/
theorem countedPos_toInt_up {a : AxisCfg} {r : AxisRegs} (h : r.dir = a.dirPos) :
    (countedPos a r).toInt = if r.pos.toInt = 32767 then -32768 else r.pos.toInt + 1 := by
  obtain ⟨hlo, hhi⟩ : -32768 ≤ r.pos.toInt ∧ r.pos.toInt ≤ 32767 := sext16_bounds r.pos
  rw [countedPos, if_pos h]
  split
  · next he =>
    rw [sext16, he]
    rfl
  · next hne => exact sext16_wrap16 (z := r.pos.toInt + 1) (by omega) (by omega)

theorem countedPos_toInt_down {a : AxisCfg} {r : AxisRegs} (h : r.dir ≠ a.dirPos) :
    (countedPos a r).toInt = if r.pos.toInt = -32768 then 32767 else r.pos.toInt - 1 := by
  obtain ⟨hlo, hhi⟩ : -32768 ≤ r.pos.toInt ∧ r.pos.toInt ≤ 32767 := sext16_bounds r.pos
  rw [countedPos, if_neg h]
  split
  · next he =>
    rw [sext16, he]
    rfl
  · next hne => exact sext16_wrap16 (z := r.pos.toInt - 1) (by omega) (by omega)

section Track

variable {s : State} {i : Nat}

theorem trackAxis_pending_self (h : i < s.pend.length) : (trackAxis i s).pending i = false := by
  obtain ⟨hp, -⟩ := trackAxis_parts i s
  simp [State.pending, hp, h]

/-- TRACK writes the counted position and keeps the target, stopping or not (R23, R133). -/
theorem trackAxis_pos_target (h : i < s.ax.length) :
    ((trackAxis i s).axis i).pos = countedPos (s.cfg.axis i) (s.axis i) ∧
      ((trackAxis i s).axis i).target = (s.axis i).target := by
  rw [trackAxis_axis_self h]
  split <;> exact ⟨rfl, rfl⟩

/-- TRACK away from the target writes the axis table and the latches alone (R133). -/
theorem trackAxis_moves_frame (h : i < s.ax.length)
    (hne : countedPos (s.cfg.axis i) (s.axis i) ≠ (s.axis i).target) :
    trackAxis i s = { s with ax := (trackAxis i s).ax, pend := (trackAxis i s).pend } := by
  rw [trackAxis_moves h hne]
  rfl

/-- TRACK onto the target writes the channel table and the direction lines too (R134). -/
theorem trackAxis_stops_frame (h : i < s.ax.length)
    (he : countedPos (s.cfg.axis i) (s.axis i) = (s.axis i).target) :
    trackAxis i s =
      { s with
        ax := (trackAxis i s).ax
        pend := (trackAxis i s).pend
        ch := (trackAxis i s).ch
        dirline := (trackAxis i s).dirline
        outputs := (trackAxis i s).outputs } := by
  rw [trackAxis_stops h he]
  rfl

/-- TRACK onto the target idles the direction line (R134). -/
theorem trackAxis_line_stopped (h : i < s.ax.length) (hl : i < s.dirline.length)
    (he : countedPos (s.cfg.axis i) (s.axis i) = (s.axis i).target) :
    (trackAxis i s).line i = (s.cfg.axis i).dirIdle := by
  rw [trackAxis_stops h he]
  exact line_setLine_self _ _ _ hl

/-- TRACK writes no other direction line (R212). -/
theorem trackAxis_line_ne {j : Nat} (h : i < s.ax.length) (hij : i ≠ j) : (trackAxis i s).line j = s.line j := by
  by_cases he : countedPos (s.cfg.axis i) (s.axis i) = (s.axis i).target
  · rw [trackAxis_stops h he]
    exact line_setLine_ne _ _ _ _ hij
  · rw [trackAxis_moves h he]
    rfl

end Track

/-- Settles O26: the counted position decides between a move and a stop. -/
theorem trackCountsAndStops : Obligations.TrackCountsAndStops := by
  unfold Obligations.TrackCountsAndStops
  intro s i hv hi hp hie
  obtain ⟨hl, hc, hline, hpend, -⟩ := State.lt_tables hv hi
  obtain ⟨hpos, -⟩ := trackAxis_pos_target (s := s) hl
  refine ⟨_, exec_track_of_pending hv hi hp hie, trackAxis_pending_self hpend, ?_⟩
  rw [hpos]
  refine ⟨countedPos_toInt_up, countedPos_toInt_down, fun hne => ?moved, fun he => ?stopped, fun j hj => ?otherAxes,
    fun d hd => trackAxis_channel_ne hl hd.symm⟩
  case moved =>
    refine ⟨?_, trackAxis_moves_frame hl hne⟩
    rw [trackAxis_axis_self hl, if_neg hne]
  case stopped =>
    refine ⟨?_, ?_, trackAxis_line_stopped hl hline he, trackAxis_stops_frame hl he⟩
    · rw [trackAxis_axis_self hl, if_pos he, he]
    · rw [trackAxis_channel_self hl hc, if_pos he]
  case otherAxes => exact ⟨trackAxis_axis_ne hl hj.symm, trackAxis_line_ne hl hj.symm, trackAxis_pending_ne hj.symm⟩

/-! ## One step of a running axis (R136, R138) -/

/-- The number of steps from the position to the target (R136). -/
def AxisRegs.distance (r : AxisRegs) : Nat := (r.target.toInt - r.pos.toInt).natAbs

theorem AxisRegs.distance_eq_zero_iff {r : AxisRegs} : r.distance = 0 ↔ r.pos = r.target := by
  rw [AxisRegs.distance, Int.natAbs_eq_zero, sub_eq_zero, BitVec.toInt_inj, eq_comm]

/-- An axis that moves counts towards its target: INV-A keeps it off the target, INV-C gives the direction, and between
the position and the target nothing wraps (R28, R136). -/
theorem AxisRegs.Kept.distance_counted {a : AxisCfg} {r : AxisRegs} {isOn : Bool} (h : r.Kept a isOn)
    (hf : r.freq ≠ 0#16) : (r.target.toInt - (countedPos a r).toInt).natAbs + 1 = r.distance := by
  have hpos : r.pos.toInt ≠ r.target.toInt := fun e => hf (h.atTarget (BitVec.toInt_inj.mp e))
  have hheads : r.dir = a.dirPos ↔ r.pos.toInt < r.target.toInt := h.heads hf
  have hlo := BitVec.le_toInt r.target
  have hhi := BitVec.toInt_lt (x := r.target)
  unfold AxisRegs.distance
  by_cases hd : r.dir = a.dirPos
  · have hlt := hheads.mp hd
    rw [countedPos_toInt_up hd, if_neg (by omega)]
    omega
  · have hge := mt hheads.mpr hd
    rw [countedPos_toInt_down hd, if_neg (by omega)]
    omega

section Running

variable {s : State} {i : Nat}

theorem State.running_iff : s.running i = true ↔
    (s.axis i).freq ≠ 0#16 ∧ (s.channel (s.cfg.chan i)).isOn = true := by
  simp [State.running]

theorem State.stopped_iff : s.stopped i = true ↔
    (s.axis i).freq = 0#16 ∧ (s.channel (s.cfg.chan i)).isOn = false := by
  simp [State.stopped]

/-- TRACK brings a running axis one step nearer to its target (R136). -/
theorem trackAxis_distance (h : s.Inv) (hi : i < s.cfg.nAx) (hr : s.running i = true) :
    ((trackAxis i s).axis i).distance + 1 = (s.axis i).distance := by
  obtain ⟨hA, -, -⟩ := State.axisInv_iff.mp (h.2 i hi)
  obtain ⟨hpos, htarget⟩ := trackAxis_pos_target (State.lt_tables h.1 hi).1
  rw [AxisRegs.distance, hpos, htarget]
  exact hA.distance_counted (State.running_iff.mp hr).1

/-- TRACK that ends at the target leaves the axis stopped and its direction line idle (R134, R138). -/
theorem trackAxis_stopped_at_target (hv : s.valid = true) (hi : i < s.cfg.nAx)
    (he : ((trackAxis i s).axis i).pos = ((trackAxis i s).axis i).target) :
    (trackAxis i s).stopped i = true ∧ (trackAxis i s).line i = (s.cfg.axis i).dirIdle := by
  obtain ⟨hl, hc, hline, -⟩ := State.lt_tables hv hi
  obtain ⟨-, hcfg, -⟩ := trackAxis_parts i s
  rw [trackAxis_atTarget_iff hl] at he
  rw [State.stopped_iff, hcfg, trackAxis_axis_self hl, trackAxis_channel_self hl hc, if_pos he, if_pos he]
  exact ⟨⟨rfl, rfl⟩, trackAxis_line_stopped hl hline he⟩

/-- TRACK that ends away from the target leaves a running axis running at its frequency (R138). -/
theorem trackAxis_running_off_target (hv : s.valid = true) (hi : i < s.cfg.nAx) (hr : s.running i = true)
    (hne : ((trackAxis i s).axis i).pos ≠ ((trackAxis i s).axis i).target) :
    (trackAxis i s).running i = true ∧ ((trackAxis i s).axis i).freq = (s.axis i).freq := by
  obtain ⟨hl, hc, -⟩ := State.lt_tables hv hi
  obtain ⟨-, hcfg, -⟩ := trackAxis_parts i s
  rw [ne_eq, trackAxis_atTarget_iff hl] at hne
  rw [State.running_iff, hcfg, trackAxis_axis_self hl, trackAxis_channel_self hl hc, if_neg hne, if_neg hne]
  exact ⟨State.running_iff.mp hr, rfl⟩

end Running

/-- Settles O29: the distance falls by one, and the target decides between a stop and running on. -/
theorem runningAxisApproachesItsTarget : Obligations.RunningAxisApproachesItsTarget := by
  unfold Obligations.RunningAxisApproachesItsTarget
  intro s i h hi hr hp hie
  exact ⟨_, exec_track_of_pending h.1 hi hp hie, trackAxis_distance h hi hr, trackAxis_stopped_at_target h.1 hi,
    trackAxis_running_off_target h.1 hi hr⟩

/-! ## A leg: one event after the other, each serviced before the next (R136, R138, R140) -/

/-- A run of inputs goes on from where its first part ends. -/
theorem runInputs_append {l l' : List Input} {s t : State} (h : runInputs l s = .next t) :
    runInputs (l ++ l') s = runInputs l' t := by
  induction l generalizing s with
  | nil =>
    obtain rfl : s = t := by simpa [runInputs] using h
    rfl
  | cons inp l ih =>
    rw [List.cons_append, runInputs]
    rw [runInputs] at h
    cases hu : inputTurn inp s with
    | next u =>
      rw [hu] at h
      exact ih h
    | fault r => simp [hu] at h
    | refused r => simp [hu] at h

/-- The state in which the tracker of axis `i` takes up a genuine event of its channel: the event's turn latched it, and
the tracker's turn has begun. -/
def eventTurn (i : Nat) (s : State) : State := (latchEvent i s.startTurn).startTurn

section Leg

variable {s t : State} {i n : Nat}

@[simp] theorem eventTurn_cfg : (eventTurn i s).cfg = s.cfg := latchEvent_cfg i s.startTurn

@[simp] theorem eventTurn_ie : (eventTurn i s).ie = s.ie := latchEvent_ie i s.startTurn

@[simp] theorem eventTurn_axis (j : Nat) : (eventTurn i s).axis j = s.axis j := latchEvent_axis i s.startTurn j

@[simp] theorem eventTurn_channel (c : Nat) : (eventTurn i s).channel c = s.channel c :=
  latchEvent_channel i s.startTurn c

@[simp] theorem eventTurn_running (j : Nat) : (eventTurn i s).running j = s.running j := by
  simp [State.running]

theorem eventTurn_pending_self (h : i < s.pend.length) : (eventTurn i s).pending i = true :=
  latchEvent_pending_self (s := s.startTurn) h

theorem eventTurn_overran_self (h : i < s.overrun.length) :
    (eventTurn i s).overran i = (s.overran i || s.pending i) :=
  latchEvent_overran_self (s := s.startTurn) h

section Event

variable (h : s.Inv) (hi : i < s.cfg.nAx) (hr : s.running i = true)
include h hi hr

/-- A running axis is off its target (R28). -/
theorem State.Inv.distance_pos : 0 < (s.axis i).distance := by
  obtain ⟨hA, -, -⟩ := State.axisInv_iff.mp (h.2 i hi)
  obtain ⟨hf, -⟩ := State.running_iff.mp hr
  exact Nat.pos_of_ne_zero fun h0 => hf (hA.atTarget (AxisRegs.distance_eq_zero_iff.mp h0))

/-- A running axis has a clocked channel, so its event is latched (R33, R131). -/
theorem inputTurn_overflow_of_running :
    inputTurn (.overflow (s.cfg.chan i) true) s = .next (latchEvent i s.startTurn) := by
  obtain ⟨-, -, -, -, -, ⟨hon, -, -⟩, -⟩ := h.2 i hi
  exact exec_ovf_genuine (s := s.startTurn) h.1 hi (hon.mp (State.running_iff.mp hr).2)

theorem eventTurn_inv : (eventTurn i s).Inv := by
  have h0 : s.startTurn.Inv := h
  have hlatched : (latchEvent i s.startTurn).Inv :=
    h0.exec (.inr (.inr (.inr (.inr (.inr (.inl ⟨_, _, rfl⟩)))))) (inputTurn_overflow_of_running h hi hr)
  exact hlatched

/-- An event of a running axis and its service. -/
theorem runInputs_event (hie : s.ie = true) :
    runInputs [.overflow (s.cfg.chan i) true, .tracker i] s = .next (trackAxis i (eventTurn i s)) := by
  obtain ⟨-, -, -, hpend, -⟩ := State.lt_tables h.1 hi
  have hlt : i < (eventTurn i s).cfg.nAx := by rwa [eventTurn_cfg]
  have htrack : inputTurn (.tracker i) (latchEvent i s.startTurn) = .next (trackAxis i (eventTurn i s)) :=
    exec_track_of_pending (eventTurn_inv h hi hr).1 hlt (eventTurn_pending_self hpend)
      (eventTurn_ie.trans hie)
  simp only [runInputs, inputTurn_overflow_of_running h hi hr, htrack]

end Event

/-- What `n` serviced events of axis `i` leave of a leg that began in `s`. -/
structure LegPart (s : State) (i n : Nat) (t : State) : Prop where
  inv : t.Inv
  cfg : t.cfg = s.cfg
  ie : t.ie = true
  target : (t.axis i).target = (s.axis i).target
  overran : t.overran i = s.overran i
  pending : t.pending i = false
  distance : (t.axis i).distance + n = (s.axis i).distance
  runs : n < (s.axis i).distance → t.running i = true
  ends : n = (s.axis i).distance → t.stopped i = true ∧ t.line i = (s.cfg.axis i).dirIdle

/-- One more serviced event before the end of the leg. -/
theorem LegPart.event (h : LegPart s i n t) (hi : i < s.cfg.nAx) (hn : n < (s.axis i).distance) :
    LegPart s i (n + 1) (trackAxis i (eventTurn i t)) := by
  have hit : i < t.cfg.nAx := h.cfg ▸ hi
  have hiu : i < (eventTurn i t).cfg.nAx := by rwa [eventTurn_cfg]
  have hr : (eventTurn i t).running i = true := (eventTurn_running i).trans (h.runs hn)
  have hinv := eventTurn_inv h.inv hit (h.runs hn)
  obtain ⟨hax, -, -, hpend, -⟩ := State.lt_tables hinv.1 hiu
  obtain ⟨-, -, -, -, hover⟩ := State.lt_tables h.inv.1 hit
  obtain ⟨-, hcfg, -, hie, -⟩ := trackAxis_parts i (eventTurn i t)
  obtain ⟨-, htarget⟩ := trackAxis_pos_target hax
  have hdist : ((trackAxis i (eventTurn i t)).axis i).distance + (n + 1) = (s.axis i).distance := by
    have hstep := trackAxis_distance hinv hiu hr
    have hsofar := h.distance
    rw [eventTurn_axis] at hstep
    omega
  have hatTarget : ((trackAxis i (eventTurn i t)).axis i).pos = ((trackAxis i (eventTurn i t)).axis i).target ↔
      n + 1 = (s.axis i).distance := by
    rw [← AxisRegs.distance_eq_zero_iff]
    omega
  exact {
    inv := trackAxis_inv hinv hiu
    cfg := by rw [hcfg, eventTurn_cfg, h.cfg]
    ie := by rw [hie, eventTurn_ie, h.ie]
    target := by rw [htarget, eventTurn_axis, h.target]
    overran := by rw [trackAxis_overran, eventTurn_overran_self hover, h.pending, h.overran, Bool.or_false]
    pending := trackAxis_pending_self hpend
    distance := hdist
    runs := fun hlt => (trackAxis_running_off_target hinv.1 hiu hr (mt hatTarget.mp hlt.ne)).1
    ends := fun heq => by
      rw [← h.cfg, ← eventTurn_cfg (i := i) (s := t)]
      exact trackAxis_stopped_at_target hinv.1 hiu (hatTarget.mpr heq) }

/-- The first `n` events of a leg, none beyond its end, run and are serviced. -/
theorem runInputs_leg (h : s.Inv) (hi : i < s.cfg.nAx) (hr : s.running i = true) (hp : s.pending i = false)
    (hie : s.ie = true) (hn : n ≤ (s.axis i).distance) :
    ∃ t, runInputs (List.replicate n [Input.overflow (s.cfg.chan i) true, Input.tracker i]).flatten s = .next t ∧
      LegPart s i n t := by
  induction n with
  | zero =>
    exact ⟨s, rfl, h, rfl, hie, rfl, rfl, hp, rfl, fun _ => hr, fun h0 => absurd h0 (h.distance_pos hi hr).ne⟩
  | succ n ih =>
    obtain ⟨t, hrun, ht⟩ := ih (by omega)
    refine ⟨_, ?_, ht.event hi hn⟩
    rw [List.replicate_succ', List.flatten_append, runInputs_append hrun, ← ht.cfg]
    exact runInputs_event ht.inv (ht.cfg ▸ hi) (ht.runs hn) ht.ie

end Leg

/-- Settles O30: by induction on the number of events serviced. -/
theorem legEndsAfterItsDistance : Obligations.LegEndsAfterItsDistance := by
  unfold Obligations.LegEndsAfterItsDistance
  intro s i n h hi hr hp hie hn
  obtain ⟨t, hrun, ht⟩ := runInputs_leg h hi hr hp hie hn
  exact ⟨t, hrun, ht.target, ht.overran, ht.pending, ht.distance, ht.runs, ht.ends⟩

end Sys2Proof.Machine

/-! PROOFS. The statements of 43_command_dispatcher.md: ACCEPT and the command opcodes (R146 to R150), the steps BATCH,
UPDATE_AXIS, CLRMASK and SNAPSHOT (R153 to R158, R171), and whole dispatches (R148, R151, R159). -/

namespace Sys2Proof.Machine

/-! ## The record ACCEPT takes (R146, R150) -/

section AcceptedRecord

variable {s : State} {bytes : List Byte} {op : Byte}

/-- Latching writes the port with its strobe, the command latch and the phase (R146). -/
theorem latchRecord_frame (bytes : List Byte) (ph : Phase) (s : State) :
    latchRecord bytes ph s =
      { s with cmdPort := none, cmdTake := true, cmd := (latchRecord bytes ph s).cmd, fgPc := ph } := rfl

/-- The latch holds the record and nothing else (R41, R67). -/
theorem latchRecord_cmd_read (hv : s.valid = true) (hl : bytes.length = s.cfg.cmdLen) (ph : Phase) (a : Nat) :
    (latchRecord bytes ph s).cmd.read a = bytes.getD a 0#8 := by
  obtain ⟨hwf, hin, -⟩ := State.valid_buffers hv
  refine (Memory.read_writeBytes hwf 0 a bytes).trans ?_
  by_cases ha : a < bytes.length
  · rw [if_pos (by omega), Nat.sub_zero]
  · rw [if_neg (by omega), Memory.read_outside hin (by omega), List.getD_eq_default _ _ (by omega)]

/-- A 2-byte field of the latched record (R63, R81). -/
theorem latchRecord_cmd_read16 (hv : s.valid = true) (hl : bytes.length = s.cfg.cmdLen) (ph : Phase) (off : Nat) :
    (latchRecord bytes ph s).cmd.read16 off = word16 (bytes.getD off 0#8) (bytes.getD (off + 1) 0#8) := by
  rw [Memory.read16, latchRecord_cmd_read hv hl, latchRecord_cmd_read hv hl]

/-- In phase IDLE a reset request writes the port and the strobes alone (R150). -/
theorem requestReset_of_idle (hi : s.fgPc = .idle) :
    requestReset s = { s with cmdPort := none, cmdTake := true, reqReset := true } := by
  rw [requestReset, ← hi]
  rfl

theorem requestBoot_of_idle (hi : s.fgPc = .idle) :
    requestBoot s = { s with cmdPort := none, cmdTake := true, reqBoot := true } := by
  rw [requestBoot, ← hi]
  rfl

theorem headD_of_getElem?_zero (h : bytes[0]? = some op) : bytes.headD 0#8 = op := by
  rw [List.headD_eq_head?_getD, List.head?_eq_getElem?, h, Option.getD_some]

theorem acceptRecord_of_opReset (h : bytes[0]? = some s.cfg.opReset) : acceptRecord bytes s = requestReset s := by
  rw [acceptRecord, headD_of_getElem?_zero h, opKind_opReset]

theorem acceptRecord_of_opBoot (hv : s.valid = true) (h : bytes[0]? = some s.cfg.opBoot) :
    acceptRecord bytes s = requestBoot s := by
  rw [acceptRecord, headD_of_getElem?_zero h, opKind_opBoot (State.valid_accepted hv)]

/-- A record that is not filtered is latched, for the batch or for the snapshot (R146). -/
theorem acceptRecord_of_not_filtered (h : bytes[0]? = some op) (hr : op ≠ s.cfg.opReset) (hb : op ≠ s.cfg.opBoot) :
    acceptRecord bytes s = latchRecord bytes (if op = s.cfg.opSet then .batch else .snap) s := by
  rw [acceptRecord, headD_of_getElem?_zero h, opKind, if_neg hr, if_neg hb]
  by_cases hs : op = s.cfg.opSet
  · rw [if_pos hs, if_pos hs]
  · rw [if_neg hs, if_neg hs]
    by_cases hg : op = s.cfg.opGet
    · rw [if_pos hg]
    · rw [if_neg hg]

end AcceptedRecord

/-- Settles O31: in phase IDLE the first byte decides between the two strobes and the latch. -/
theorem acceptTakesTheRecord : Obligations.AcceptTakesTheRecord := by
  unfold Obligations.AcceptTakesTheRecord
  refine fun s bytes op hv hp hl hop => ⟨fun hne => ?busy, fun hi => ⟨acceptRecord bytes s, ?idle, ?reset, ?boot,
    fun hr hb => ?latched⟩⟩
  case busy => exact exec_accept_next.mpr ⟨hv, .inr ⟨.inl (decide_eq_false hne), rfl⟩⟩
  case idle => rw [exec_accept_of_record hv hi hp, whenRecord_of_length hl]
  case reset =>
    rintro rfl
    rw [acceptRecord_of_opReset hop, requestReset_of_idle hi]
  case boot =>
    rintro rfl
    rw [acceptRecord_of_opBoot hv hop, requestBoot_of_idle hi]
  case latched =>
    rw [acceptRecord_of_not_filtered hop hr hb]
    exact ⟨latchRecord_cmd_read hv hl _, latchRecord_frame _ _ _⟩

/-- Settles O41: the filtered opcodes on their accepting step. -/
theorem filteredOpcodesBypassTheCore : Obligations.FilteredOpcodesBypassTheCore := by
  unfold Obligations.FilteredOpcodesBypassTheCore
  intro s p hv hi hf
  rw [← requestReset_of_idle hi, ← requestBoot_of_idle hi]
  exact ⟨exec_resetReq_next.mpr ⟨hv, .inl ⟨decide_eq_true hi, encodeRecord_length_of_fits _ hf, rfl⟩⟩,
    exec_bootReq_next.mpr ⟨hv, .inl ⟨decide_eq_true hi, encodeRecord_length_of_fits _ hf, rfl⟩⟩⟩

/-- Settles O42: SET_STATE latches its record for the batch. -/
theorem setStateStartsTheBatch : Obligations.SetStateStartsTheBatch := by
  unfold Obligations.SetStateStartsTheBatch
  intro s p hv hi hf
  have hl := encodeRecord_length_of_fits s.cfg.opSet hf
  exact ⟨_, exec_setState_next.mpr ⟨hv, .inl ⟨decide_eq_true hi, hl, rfl⟩⟩, latchRecord_cmd_read hv hl _,
    latchRecord_frame _ _ _⟩

/-! ## CLRMASK (R156) -/

theorem clearMask_cmd_read {s : State} (hv : s.valid = true) (a : Nat) :
    (clearMask s).cmd.read a = if a = 1 then 0#8 else s.cmd.read a :=
  Memory.read_write (State.valid_buffers hv).1 1 a 0#8

/-- Settles O46: CLRMASK is one byte write. -/
theorem clrMaskZeroesTheMask : Obligations.ClrMaskZeroesTheMask := by
  unfold Obligations.ClrMaskZeroesTheMask
  intro s hv hph
  refine ⟨_, exec_clrMask_next.mpr ⟨hv, .inl ⟨hph, rfl⟩⟩, ?_, fun a ha => ?_, rfl⟩
  · rw [clearMask_cmd_read hv, if_pos rfl]
  · rw [clearMask_cmd_read hv, if_neg ha]

/-! ## SNAPSHOT (R158) -/

section Snapshot

variable {s : State}

/-- The status record shows every axis record of `s`, each field at its offset (R84, R158). -/
def State.Reports (t s : State) : Prop :=
  ∀ k, k < s.cfg.nAx → t.status.read16 (1 + 4 * k) = (s.axis k).freq ∧ t.status.read16 (3 + 4 * k) = (s.axis k).pos

/-- The bytes the snapshot's loop starts from: the opcode echoed, the rest as before (R157). -/
theorem echoOpcode_status_read (hv : s.valid = true) (a : Nat) :
    (echoOpcode s).status.read a = if a = 0 then s.cmd.read 0 else s.status.read a := by
  obtain ⟨-, -, hwf, -⟩ := State.valid_buffers hv
  exact Memory.read_write hwf 0 a (s.cmd.read 0)

theorem echoOpcode_status_wf (hv : s.valid = true) : (echoOpcode s).status.wf = true := by
  obtain ⟨-, -, hwf, -⟩ := State.valid_buffers hv
  exact Memory.write_wf hwf 0 (s.cmd.read 0)

theorem snapshotAll_echoes (hv : s.valid = true) : (snapshotAll s).status.read 0 = s.cmd.read 0 := by
  obtain ⟨-, hout, -⟩ := snapshotLoop_status s.cfg.nAx (guardEnter (echoOpcode s)) (echoOpcode_status_wf hv)
  refine (hout 0 (.inl rfl)).trans ((echoOpcode_status_read hv 0).trans ?_)
  rw [if_pos rfl]

theorem snapshotAll_reports (hv : s.valid = true) : (snapshotAll s).Reports s := by
  obtain ⟨-, -, hin⟩ := snapshotLoop_status s.cfg.nAx (guardEnter (echoOpcode s)) (echoOpcode_status_wf hv)
  intro k hk
  obtain ⟨hf0, hf1, hp0, hp1⟩ := hin k hk
  exact ⟨read16_of_bytes hf0 hf1, read16_of_bytes hp0 hp1⟩

theorem snapshotAll_status_beyond (hv : s.valid = true) {a : Nat} (ha : 1 + 4 * s.cfg.nAx ≤ a) :
    (snapshotAll s).status.read a = s.status.read a := by
  obtain ⟨-, hout, -⟩ := snapshotLoop_status s.cfg.nAx (guardEnter (echoOpcode s)) (echoOpcode_status_wf hv)
  refine (hout a (.inr (by omega))).trans ((echoOpcode_status_read hv a).trans ?_)
  rw [if_neg (by omega)]

/-- A latched record and the SNAPSHOT that follows it: the whole of a dispatch that only reports (R147, R149). -/
theorem snapshotAll_latchRecord (hv : s.valid = true) {op : Byte} {p : Payload} (hf : p.fits s.cfg = true) :
    exec .snapshot (latchRecord (encodeRecord op p) .snap s) =
        .next (snapshotAll (latchRecord (encodeRecord op p) .snap s)) ∧
      (snapshotAll (latchRecord (encodeRecord op p) .snap s)).status.read 0 = op ∧
        (snapshotAll (latchRecord (encodeRecord op p) .snap s)).Reports s := by
  have hl := encodeRecord_length_of_fits op hf
  have hv' := latchRecord_valid hv hl (.inl rfl)
  refine ⟨exec_snapshot_next.mpr ⟨hv', .inl ⟨rfl, rfl⟩⟩, ?_, snapshotAll_reports hv'⟩
  rw [snapshotAll_echoes hv', latchRecord_cmd_read hv hl]
  rfl

end Snapshot

/-- Settles O47: the echoed byte, the loop over the axes and the bytes beyond it. -/
theorem snapshotWritesTheStatusRecord : Obligations.SnapshotWritesTheStatusRecord := by
  unfold Obligations.SnapshotWritesTheStatusRecord
  exact fun s hv hph => ⟨_, exec_snapshot_next.mpr ⟨hv, .inl ⟨hph, rfl⟩⟩, snapshotAll_echoes hv, snapshotAll_reports hv,
    fun a => snapshotAll_status_beyond hv, snapshotAll_frame⟩

/-- Settles O39: GET_STATE latches its record for the snapshot. -/
theorem getStateReportsEveryAxis : Obligations.GetStateReportsEveryAxis := by
  unfold Obligations.GetStateReportsEveryAxis
  intro s p hv hi hf
  have hl := encodeRecord_length_of_fits s.cfg.opGet hf
  obtain ⟨hsnap, hecho, hreport⟩ := snapshotAll_latchRecord hv (op := s.cfg.opGet) hf
  exact ⟨_, _, exec_getState_next.mpr ⟨hv, .inl ⟨decide_eq_true hi, hl, rfl⟩⟩, latchRecord_cmd_read hv hl _,
    latchRecord_frame _ _ _, hsnap, hecho, hreport, snapshotAll_frame⟩

/-- Settles O40: UNRECOGNIZED latches its record, under its own opcode, for the snapshot. -/
theorem unrecognizedReportsEveryAxis : Obligations.UnrecognizedReportsEveryAxis := by
  unfold Obligations.UnrecognizedReportsEveryAxis
  intro s op p hv hi hf _
  have hl := encodeRecord_length_of_fits op hf
  obtain ⟨hsnap, hecho, hreport⟩ := snapshotAll_latchRecord hv (op := op) hf
  exact ⟨_, _, exec_unrecognized_next.mpr ⟨hv, .inl ⟨decide_eq_true hi, hl, rfl⟩⟩, latchRecord_cmd_read hv hl _,
    latchRecord_frame _ _ _, hsnap, hecho, hreport, snapshotAll_frame⟩

/-! ## BATCH (R153) -/

section CommandedRegs

variable {a : AxisCfg} {r : AxisRegs} {p : Word16}

/-- Whatever the comparison says, the batch stores the target, sets the dirty flag and keeps the position. -/
theorem commandedRegs_parts (a : AxisCfg) (r : AxisRegs) (f : Nat) (p : Word16) :
    (commandedRegs a r f p).pos = r.pos ∧ (commandedRegs a r f p).target = p ∧ (commandedRegs a r f p).dirty = true := by
  unfold commandedRegs
  split
  · exact ⟨rfl, rfl, rfl⟩
  · split <;> exact ⟨rfl, rfl, rfl⟩

theorem commandedRegs_up (f : Nat) (h : sext16 r.pos < sext16 p) :
    (commandedRegs a r f p).freq = BitVec.ofNat 16 (clampFreq a f) ∧ (commandedRegs a r f p).dir = a.dirPos := by
  rw [commandedRegs, if_pos h]
  exact ⟨rfl, rfl⟩

theorem commandedRegs_down (f : Nat) (h : sext16 p < sext16 r.pos) :
    (commandedRegs a r f p).freq = BitVec.ofNat 16 (clampFreq a f) ∧ (commandedRegs a r f p).dir = a.dirNeg := by
  rw [commandedRegs, if_neg h.not_gt, if_pos h]
  exact ⟨rfl, rfl⟩

theorem commandedRegs_there (f : Nat) (h : sext16 p = sext16 r.pos) :
    (commandedRegs a r f p).freq = 0#16 ∧ (commandedRegs a r f p).dir = r.dir := by
  rw [commandedRegs, if_neg h.not_gt, if_neg h.not_lt]
  exact ⟨rfl, rfl⟩

end CommandedRegs

/-- Settles O43: the record of each axis, selected or not, by the signed comparison. -/
theorem batchAppliesTheCommand : Obligations.BatchAppliesTheCommand := by
  unfold Obligations.BatchAppliesTheCommand
  intro s hv hph
  refine ⟨_, exec_batch_next.mpr ⟨hv, .inl ⟨hph, rfl⟩⟩, batchAll_frame, fun k hk => ⟨fun hs => ?unselected,
    fun hs => ?selected⟩⟩
  case unselected => exact batchAll_axis_unselected hv fun _ => hs
  case selected =>
    rw [batchAll_axis_selected hv hk hs]
    generalize s.cmd.read16 (2 + 4 * k) = f, s.cmd.read16 (4 + 4 * k) = p
    obtain ⟨hpos, htarget, hdirty⟩ := commandedRegs_parts (s.cfg.axis k) (s.axis k) (zext16 f) p
    obtain ⟨-, hmax, -⟩ := Cfg.axis_spec (State.valid_accepted hv) hk
    have hclamp (g : Word16) (hg : g = BitVec.ofNat 16 (clampFreq (s.cfg.axis k) (zext16 f))) :
        g.toNat = min f.toNat (s.cfg.axis k).fmax := hg ▸ zext16_clampFreq hmax (zext16 f)
    exact ⟨hpos, htarget, hdirty, fun hlt => (commandedRegs_up _ hlt).imp_left (hclamp _),
      fun hgt => (commandedRegs_down _ hgt).imp_left (hclamp _), fun he => commandedRegs_there _ he⟩

/-! ## UPDATE_AXIS (R171, R173) -/

section Update

variable {s : State} {i f : Nat}

theorem updateAxis_line_ne {j : Nat} (hij : i ≠ j) : (updateAxis i s).line j = s.line j := by
  obtain ⟨-, hline, -⟩ := updateAxis_other (s := s) j (s.cfg.chan i + 1) hij (Nat.succ_ne_self _).symm
  exact hline

theorem updateAxis_channel_ne {d : Nat} (hd : s.cfg.chan i ≠ d) : (updateAxis i s).channel d = s.channel d := by
  obtain ⟨-, -, hchan⟩ := updateAxis_other (s := s) (i + 1) d (Nat.succ_ne_self i).symm hd
  exact hchan

/-- WF7: the result of a request within the bound fits the frequency register (R109). -/
theorem toNat_ofNat_deriveResult {cfg : Cfg} (h : cfg.accepted = true) (hi : i < cfg.nAx) (hf : f ≤ (cfg.axis i).fmax) :
    (BitVec.ofNat 16 (deriveResult cfg (cfg.chan i) f)).toNat = deriveResult cfg (cfg.chan i) f := by
  have hle : deriveResult cfg (cfg.chan i) f ≤ 65535 := by
    by_cases h0 : f = 0
    · rw [h0, deriveResult_zero]
      exact Nat.zero_le _
    · rw [deriveResult_of_ne_zero _ _ h0]
      exact (Cfg.request_fits h hi (Nat.pos_of_ne_zero h0) hf).2
  rw [BitVec.toNat_ofNat, Nat.mod_eq_of_lt (by omega)]

variable (hv : s.valid = true) (hi : i < s.cfg.nAx)
include hv hi

/-- A clamped request of 0 disables the channel, keeps its pair and leaves the line (R173). -/
theorem updateAxis_of_zero (h0 : clampFreq (s.cfg.axis i) (zext16 (s.axis i).freq) = 0) :
    (updateAxis i s).line i = s.line i ∧
      (updateAxis i s).channel (s.cfg.chan i) =
        { s.channel (s.cfg.chan i) with
          ctl := (s.channel (s.cfg.chan i)).ctl &&& ~~~(s.cfg.channel (s.cfg.chan i)).csMask
          isOn := false } := by
  obtain ⟨-, hc, -⟩ := State.lt_tables hv hi
  obtain ⟨hline, hchan⟩ := updateAxis_stop hv hi (by rw [h0, deriveResult_zero])
  refine ⟨hline, hchan.trans ?_⟩
  rw [h0, deriveChannel_zero, disableChannel_self _ _ (by simpa using hc), disableChannel_self (guardEnter s) _ hc,
    disableChannel_cfg, guardEnter_cfg, guardEnter_channel, clearField_and_not]

/-- Any other request starts the channel with the derived pair and drives the line (R171). -/
theorem updateAxis_of_ne_zero (hf : f = clampFreq (s.cfg.axis i) (zext16 (s.axis i).freq)) (h0 : f ≠ 0) :
    (updateAxis i s).line i = (s.axis i).dir ∧
      (updateAxis i s).channel (s.cfg.chan i) =
        { psc := derivePsc s.cfg.fClk (s.cfg.channel (s.cfg.chan i)) f
          top := BitVec.ofNat 16 (deriveTop s.cfg.fClk (s.cfg.channel (s.cfg.chan i)) f)
          isOn := true
          ctl := (s.channel (s.cfg.chan i)).ctl &&& ~~~(s.cfg.channel (s.cfg.chan i)).csMask |||
            csCodeAt (s.cfg.channel (s.cfg.chan i)) (derivePsc s.cfg.fClk (s.cfg.channel (s.cfg.chan i)) f) } := by
  obtain ⟨-, hc, -⟩ := State.lt_tables hv hi
  obtain ⟨hres, -⟩ := deriveResult_ne_zero (State.valid_accepted hv) hi h0 (hf.trans_le (min_le_right _ _))
  obtain ⟨hline, hchan⟩ := updateAxis_start hv hi (hf ▸ hres)
  refine ⟨hline, hchan.trans ?_⟩
  rw [← hf, enableChannel_self _ _ (by simpa using hc), deriveChannel_self (guardEnter s) _ h0 hc,
    deriveChannel_cfg, guardEnter_cfg, guardEnter_channel]

/-- The frequency UPDATE_AXIS stores is the result of the derivation (R171). -/
theorem updateAxis_freq_toNat :
    ((updateAxis i s).axis i).freq.toNat =
      deriveResult s.cfg (s.cfg.chan i) (clampFreq (s.cfg.axis i) (zext16 (s.axis i).freq)) := by
  rw [updateAxis_axis_self hv hi]
  exact toNat_ofNat_deriveResult (State.valid_accepted hv) hi (min_le_right _ _)

theorem exec_updateAxis_of_dirty (hph : s.fgPc = .upd i) (hd : (s.axis i).dirty = true) :
    exec (.updateAxis i) s = .next ((updateAxis i s).setPhase (.upd (i + 1))) :=
  exec_updateAxis_next.mpr ⟨hv, hi, .inl ⟨by simp [updateEnabled, hph, hd], rfl⟩⟩

end Update

/-- Settles O45: the clamped request decides between a stop and a start. -/
theorem updateAxisAppliesTheDerivation : Obligations.UpdateAxisAppliesTheDerivation := by
  unfold Obligations.UpdateAxisAppliesTheDerivation
  intro s i hv hi hph hd
  have hacc := State.valid_accepted hv
  have hc := Cfg.chan_lt hacc hi
  have hfreq := updateAxis_freq_toNat hv hi
  refine ⟨_, exec_updateAxis_of_dirty hv hi hph hd, congrArg (State.setPhase · _) (updateAxis_frame i),
    fun j hj => ⟨updateAxis_axis_ne hj.symm, updateAxis_line_ne hj.symm⟩, fun d hne => updateAxis_channel_ne hne.symm,
    ?own, fun h0 => ?stop, fun f hf h0 => ?start⟩
  case own =>
    rw [setPhase_axis, updateAxis_axis_self hv hi]
  case stop =>
    obtain ⟨hline, hchan⟩ := updateAxis_of_zero hv hi h0
    rw [show clampFreq (s.cfg.axis i) (zext16 (s.axis i).freq) = 0 from h0, deriveResult_zero] at hfreq
    exact ⟨BitVec.eq_of_toNat_eq hfreq, hline, hchan⟩
  case start =>
    have hfmax : f ≤ (s.cfg.axis i).fmax := hf.trans_le (min_le_right _ _)
    obtain ⟨hline, hchan⟩ := updateAxis_of_ne_zero hv hi hf h0
    obtain ⟨hres, -⟩ := deriveResult_ne_zero hacc hi h0 hfmax
    obtain ⟨hpsc, -⟩ := derivePsc_spec s.cfg.fClk (s.cfg.channel (s.cfg.chan i)) f (Cfg.ratios_spec hacc hc).1
    rw [show clampFreq (s.cfg.axis i) (zext16 (s.axis i).freq) = f from hf.symm] at hfreq
    rw [setPhase_axis, setPhase_line, setPhase_channel, hchan]
    refine ⟨hfreq.trans (deriveResult_of_ne_zero _ _ h0), fun e => hres ?_, hline, rfl,
      Cfg.toNat_ofNat_deriveTop hacc hc f, rfl, _, Cfg.csCode_getElem? hacc hc hpsc, rfl⟩
    rw [← hfreq, e]
    rfl

/-! ## The foreground's turn in each phase (R155, R186) -/

section Turns

variable {s : State} {k : Nat}

theorem foregroundStep_of_batch (hph : s.fgPc = .batch) : foregroundStep s = exec .batch s := by
  rw [foregroundStep, hph]

theorem foregroundStep_of_upd (hph : s.fgPc = .upd k) : foregroundStep s = updTurn k s := by
  rw [foregroundStep, hph]

theorem foregroundStep_of_clr (hph : s.fgPc = .clr) : foregroundStep s = exec .clrMask s := by
  rw [foregroundStep, hph]

theorem foregroundStep_of_snap (hph : s.fgPc = .snap) : foregroundStep s = exec .snapshot s := by
  rw [foregroundStep, hph]

theorem foregroundStep_past (hph : s.fgPc = .upd s.cfg.nAx) : foregroundStep s = .next (s.setPhase .clr) :=
  (foregroundStep_of_upd hph).trans (updTurn_past rfl)

theorem foregroundStep_clean (hph : s.fgPc = .upd k) (hk : k ≠ s.cfg.nAx) (hd : (s.axis k).dirty = false) :
    foregroundStep s = .next (s.setPhase (.upd (k + 1))) :=
  (foregroundStep_of_upd hph).trans (updTurn_clean hk hd)

variable (hv : s.valid = true)
include hv

/-- `UPD(k)` short of the end is the phase of an axis (R40). -/
theorem State.lt_nAx_of_upd (hph : s.fgPc = .upd k) (hk : k ≠ s.cfg.nAx) : k < s.cfg.nAx := by
  have hle : k ≤ s.cfg.nAx := by simpa [State.phaseFits, hph] using State.valid_phase hv
  omega

theorem foregroundStep_accept (hi : s.fgPc = .idle) {bytes : List Byte} (hp : s.cmdPort = some bytes)
    (hl : bytes.length = s.cfg.cmdLen) : foregroundStep s = .next (acceptRecord bytes s) := by
  rw [foregroundStep_of_idle hi, exec_accept_of_record hv hi hp, whenRecord_of_length hl]

theorem foregroundStep_batch (hph : s.fgPc = .batch) : foregroundStep s = .next (batchAll s) :=
  (foregroundStep_of_batch hph).trans (exec_batch_next.mpr ⟨hv, .inl ⟨hph, rfl⟩⟩)

theorem foregroundStep_dirty (hph : s.fgPc = .upd k) (hk : k ≠ s.cfg.nAx) (hd : (s.axis k).dirty = true) :
    foregroundStep s = .next ((updateAxis k s).setPhase (.upd (k + 1))) := by
  rw [foregroundStep_of_upd hph, updTurn_dirty hk hd, exec_updateAxis_of_dirty hv (State.lt_nAx_of_upd hv hph hk) hph hd]

theorem foregroundStep_clr (hph : s.fgPc = .clr) : foregroundStep s = .next (clearMask s) :=
  (foregroundStep_of_clr hph).trans (exec_clrMask_next.mpr ⟨hv, .inl ⟨hph, rfl⟩⟩)

theorem foregroundStep_snap (hph : s.fgPc = .snap) : foregroundStep s = .next (snapshotAll s) :=
  (foregroundStep_of_snap hph).trans (exec_snapshot_next.mpr ⟨hv, .inl ⟨hph, rfl⟩⟩)

end Turns

theorem turned_of_inputs {s : State} {inp : Input} {rest : List Input} (h : s.inputs = inp :: rest) :
    s.turned = ({ s with inputs := rest } : State).startTurn := by
  rw [State.turned, h, List.tail_cons]

/-- Settles O38: the UPD step's three branches, on the turned state. -/
theorem updPhasesVisitEveryAxis : Obligations.UpdPhasesVisitEveryAxis := by
  unfold Obligations.UpdPhasesVisitEveryAxis
  intro s rest k hv hin hph
  rw [step_foreground hv hin, ← turned_of_inputs hin]
  have hv' : s.turned.valid = true := hv
  refine ⟨fun hk => ?past, fun hk hd => ?clean, fun hk hd => ?dirty⟩
  case past =>
    rw [foregroundStep_past (hk ▸ hph), turned_of_inputs hin]
    rfl
  case clean =>
    rw [foregroundStep_clean (s := s.turned) hph hk hd, turned_of_inputs hin]
    rfl
  case dirty =>
    have hk' := State.lt_nAx_of_upd hv hph hk
    exact ⟨_, foregroundStep_dirty hv' hph hk hd, exec_updateAxis_of_dirty hv' hk' hph hd, rfl⟩

/-! ## Runs of the foreground alone (R145) -/

section Runs

variable {s t u : State} {m n : Nat}

theorem runForeground_add (h : runForeground m s = .next t) : runForeground (m + n) s = runForeground n t := by
  induction m generalizing s with
  | zero =>
    obtain rfl : s = t := by simpa [runForeground] using h
    rw [Nat.zero_add]
  | succ m ih =>
    rw [Nat.succ_add, runForeground]
    rw [runForeground] at h
    cases hs : foregroundTurn s with
    | next v =>
      rw [hs] at h
      exact ih h
    | fault r => simp [hs] at h
    | refused r => simp [hs] at h

theorem runForeground_one (hv : s.valid = true) (h : foregroundStep s.startTurn = .next t) :
    runForeground 1 s = .next t := by
  rw [runForeground, foregroundTurn_of_valid hv, h]
  rfl

/-- One more turn of a run that has come to a valid state. -/
theorem runForeground_succ (h : runForeground n s = .next t) (hv : t.valid = true)
    (hstep : foregroundStep t.startTurn = .next u) : runForeground (n + 1) s = .next u :=
  (runForeground_add h).trans (runForeground_one hv hstep)

/-- A turn of the foreground keeps the invariant, being the step of some state (R28). -/
theorem State.Inv.foregroundStep (h : s.Inv) (hstep : foregroundStep s.startTurn = .next t) : t.Inv := by
  have h' : ({ s with inputs := .foreground :: s.inputs } : State).Inv := h
  exact everyStepKeepsTheInvariant _ t h' ((step_foreground h'.1 rfl).trans hstep)

end Runs

/-- Settles O50: a filtered opcode is one turn; a latched record is followed by the turn of SNAPSHOT. -/
theorem otherDispatchesTakeTwoTurnsOrOne : Obligations.OtherDispatchesTakeTwoTurnsOrOne := by
  unfold Obligations.OtherDispatchesTakeTwoTurnsOrOne
  intro s bytes op hv hi hp hl hop hset
  have hv' : s.startTurn.valid = true := hv
  have haccept : runForeground 1 s = .next (acceptRecord bytes s.startTurn) :=
    runForeground_one hv (foregroundStep_accept hv' hi hp hl)
  refine ⟨fun hfilter => ?filtered, fun hr hb => ?latched⟩
  case filtered =>
    refine ⟨_, haccept, ?_⟩
    obtain rfl | rfl := hfilter
    · rw [acceptRecord_of_opReset (s := s.startTurn) hop]
      exact ⟨rfl, rfl, rfl⟩
    · rw [acceptRecord_of_opBoot hv' hop]
      exact ⟨rfl, rfl, rfl⟩
  case latched =>
    have he : acceptRecord bytes s.startTurn = latchRecord bytes .snap s.startTurn :=
      (acceptRecord_of_not_filtered (s := s.startTurn) hop hr hb).trans (by rw [startTurn_cfg, if_neg hset])
    rw [he] at haccept
    have hlatched : (latchRecord bytes .snap s.startTurn).valid = true := latchRecord_valid hv' hl (.inl rfl)
    have hv2 : (latchRecord bytes .snap s.startTurn).startTurn.valid = true := hlatched
    refine ⟨_, _, haccept, rfl, runForeground_succ haccept hlatched (foregroundStep_snap hv2 rfl), ?_⟩
    have hecho : (snapshotAll (latchRecord bytes .snap s.startTurn).startTurn).status.read 0 = op :=
      (snapshotAll_echoes hv2).trans ((latchRecord_cmd_read hv' hl .snap 0).trans (by simp [hop]))
    rw [snapshotAll_frame] at hecho ⊢
    exact ⟨rfl, rfl, hecho, rfl, rfl, rfl, rfl⟩

/-! ## A SET_STATE dispatch (R148, R151, R159) -/

/-! ### The record of an axis after its UPD turn -/

/-- The record of axis `i` after its UPD turn: a dirty one resynchronized, a clean one as before (R155, R171). -/
def resyncedRegs (cfg : Cfg) (i : Nat) (r : AxisRegs) : AxisRegs :=
  if r.dirty then
    { r with
      freq := BitVec.ofNat 16 (deriveResult cfg (cfg.chan i) (clampFreq (cfg.axis i) (zext16 r.freq)))
      dirty := false }
  else r

section Resynced

variable {cfg : Cfg} {i : Nat} {r : AxisRegs}

theorem resyncedRegs_of_clean (h : r.dirty = false) : resyncedRegs cfg i r = r :=
  if_neg (by simp [h])

theorem resyncedRegs_of_dirty (h : r.dirty = true) :
    resyncedRegs cfg i r =
      { r with
        freq := BitVec.ofNat 16 (deriveResult cfg (cfg.chan i) (clampFreq (cfg.axis i) (zext16 r.freq)))
        dirty := false } :=
  if_pos h

/-- The UPD turn keeps the position and the target, and leaves the record clean. -/
theorem resyncedRegs_parts (cfg : Cfg) (i : Nat) (r : AxisRegs) :
    (resyncedRegs cfg i r).pos = r.pos ∧ (resyncedRegs cfg i r).target = r.target ∧
      (resyncedRegs cfg i r).dirty = false := by
  cases h : r.dirty with
  | false =>
    rw [resyncedRegs_of_clean h]
    exact ⟨rfl, rfl, h⟩
  | true =>
    rw [resyncedRegs_of_dirty h]
    exact ⟨rfl, rfl, rfl⟩

/-- The updater's own clamp finds the batch's request clamped (R174). -/
theorem clampFreq_zext16_clampFreq {a : AxisCfg} (h : a.fmax ≤ 65535) (f : Nat) :
    clampFreq a (zext16 (BitVec.ofNat 16 (clampFreq a f))) = clampFreq a f := by
  rw [zext16_clampFreq h]
  exact min_eq_left (min_le_right _ _)

/-- The frequency a command leaves: 0 at the target, else what its clamped request achieves (R153, R171). -/
theorem resyncedRegs_commandedRegs_freq (h : cfg.accepted = true) (hi : i < cfg.nAx) (r : AxisRegs) (f : Nat)
    (p : Word16) :
    (resyncedRegs cfg i (commandedRegs (cfg.axis i) r f p)).freq.toNat =
      if p = r.pos then 0 else deriveResult cfg (cfg.chan i) (clampFreq (cfg.axis i) f) := by
  obtain ⟨-, hmax, -⟩ := Cfg.axis_spec h hi
  obtain ⟨-, -, hdirty⟩ := commandedRegs_parts (cfg.axis i) r f p
  rw [resyncedRegs_of_dirty hdirty]
  refine (toNat_ofNat_deriveResult (f := clampFreq _ _) h hi (min_le_right _ _)).trans ?_
  rcases lt_trichotomy (sext16 r.pos) (sext16 p) with hlt | he | hgt
  · have hne : p ≠ r.pos := by rintro rfl; exact absurd hlt (lt_irrefl _)
    rw [(commandedRegs_up f hlt).1, clampFreq_zext16_clampFreq hmax, if_neg hne]
  · have hpos : p = r.pos := (BitVec.toInt_inj.mp he).symm
    rw [(commandedRegs_there f he.symm).1, if_pos hpos]
    exact (congrArg _ (Nat.zero_min _)).trans (deriveResult_zero cfg _)
  · have hne : p ≠ r.pos := by rintro rfl; exact absurd hgt (lt_irrefl _)
    rw [(commandedRegs_down f hgt).1, clampFreq_zext16_clampFreq hmax, if_neg hne]

end Resynced

/-! ### Acceptance and BATCH: the first two turns -/

/-- What the acceptance of the SET_STATE record `bytes` and the batch leave. -/
def batched (bytes : List Byte) (s : State) : State := batchAll (latchRecord bytes .batch s.startTurn).startTurn

section Batched

variable {s : State} {bytes : List Byte}

theorem batched_frame (bytes : List Byte) (s : State) :
    batched bytes s =
      { s.startTurn with
        ax := (batched bytes s).ax
        cmd := (latchRecord bytes .batch s.startTurn).cmd
        cmdPort := none
        savedIe := s.ie
        fgPc := .upd 0 } := by
  rw [batched, batchAll_frame]
  rfl

@[simp] theorem batched_cfg : (batched bytes s).cfg = s.cfg := by rw [batched_frame]; rfl

@[simp] theorem batched_channel (c : Nat) : (batched bytes s).channel c = s.channel c := by rw [batched_frame]; rfl

@[simp] theorem batched_line (i : Nat) : (batched bytes s).line i = s.line i := by rw [batched_frame]; rfl

theorem batched_cmd_read (hv : s.valid = true) (hl : bytes.length = s.cfg.cmdLen) (a : Nat) :
    (batched bytes s).cmd.read a = bytes.getD a 0#8 := by
  rw [batched_frame]
  exact latchRecord_cmd_read (s := s.startTurn) hv hl .batch a

/-- An unselected axis keeps its record (R152). -/
theorem batched_axis_unselected (hv : s.valid = true) (hl : bytes.length = s.cfg.cmdLen) {k : Nat}
    (hs : (bytes.getD 1 0#8).getLsbD k = false) : (batched bytes s).axis k = s.axis k := by
  have hv1 : (latchRecord bytes .batch s.startTurn).startTurn.valid = true :=
    latchRecord_valid (s := s.startTurn) hv hl (.inr rfl)
  refine batchAll_axis_unselected hv1 fun _ => ?_
  rw [startTurn_cmd, latchRecord_cmd_read (s := s.startTurn) hv hl]
  exact hs

/-- A selected axis takes the request of its slot (R153). -/
theorem batched_axis_selected (hv : s.valid = true) (hl : bytes.length = s.cfg.cmdLen) {k : Nat} (hk : k < s.cfg.nAx)
    (hs : (bytes.getD 1 0#8).getLsbD k = true) :
    (batched bytes s).axis k =
      commandedRegs (s.cfg.axis k) (s.axis k)
        (word16 (bytes.getD (2 + 4 * k) 0#8) (bytes.getD (3 + 4 * k) 0#8)).toNat
        (word16 (bytes.getD (4 + 4 * k) 0#8) (bytes.getD (5 + 4 * k) 0#8)) := by
  have hv1 : (latchRecord bytes .batch s.startTurn).startTurn.valid = true :=
    latchRecord_valid (s := s.startTurn) hv hl (.inr rfl)
  have hsel : selects ((latchRecord bytes .batch s.startTurn).startTurn.cmd.read 1) k = true := by
    rw [startTurn_cmd, latchRecord_cmd_read (s := s.startTurn) hv hl]
    exact hs
  refine (batchAll_axis_selected hv1 hk hsel).trans ?_
  rw [startTurn_cmd, latchRecord_cmd_read16 (s := s.startTurn) hv hl, latchRecord_cmd_read16 (s := s.startTurn) hv hl,
    show 2 + 4 * k + 1 = 3 + 4 * k by omega, show 4 + 4 * k + 1 = 5 + 4 * k by omega]
  rfl

/-- The batch keeps every position (R22). -/
theorem batched_axis_pos (hv : s.valid = true) (hl : bytes.length = s.cfg.cmdLen) (k : Nat) :
    ((batched bytes s).axis k).pos = (s.axis k).pos :=
  batchAll_axis_pos (s := (latchRecord bytes .batch s.startTurn).startTurn)
    (latchRecord_valid (s := s.startTurn) hv hl (.inr rfl)) k

/-- The first two turns of a SET_STATE dispatch. -/
theorem runForeground_batched (h : s.Inv) (hi : s.fgPc = .idle) (hp : s.cmdPort = some bytes)
    (hl : bytes.length = s.cfg.cmdLen) (hop : bytes[0]? = some s.cfg.opSet) :
    runForeground 1 s = .next (latchRecord bytes .batch s.startTurn) ∧
      runForeground 2 s = .next (batched bytes s) ∧ (batched bytes s).Inv := by
  have hv' : s.startTurn.valid = true := h.1
  have haccept : acceptRecord bytes s.startTurn = latchRecord bytes .batch s.startTurn := by
    rw [acceptRecord, headD_of_getElem?_zero hop, startTurn_cfg, opKind_opSet (State.valid_accepted h.1)]
  have hstep : foregroundStep s.startTurn = .next (latchRecord bytes .batch s.startTurn) := by
    rw [foregroundStep_accept hv' hi hp hl, haccept]
  have h1 := h.foregroundStep hstep
  have hrun := runForeground_one h.1 hstep
  have hbatch : foregroundStep (latchRecord bytes .batch s.startTurn).startTurn = .next (batched bytes s) :=
    foregroundStep_batch (s := (latchRecord bytes .batch s.startTurn).startTurn) h1.1 rfl
  exact ⟨hrun, runForeground_succ hrun h1.1 hbatch, h1.foregroundStep hbatch⟩

end Batched

/-! ### The UPD turns -/

/-- What `k` UPD turns leave of the state `b` they began in: the axes below `k` are up to date, the others as they were,
and an axis that was clean keeps its channel and its line. -/
structure UpdatesDone (b : State) (k : Nat) (t : State) : Prop where
  inv : t.Inv
  frame : t =
    { b with
      ax := t.ax
      ch := t.ch
      dirline := t.dirline
      savedIe := t.savedIe
      fgPc := .upd k
      statusValid := t.statusValid
      cmdTake := t.cmdTake
      reqReset := t.reqReset
      reqBoot := t.reqBoot
      outputs := t.outputs }
  done : ∀ j, j < k → t.axis j = resyncedRegs b.cfg j (b.axis j)
  todo : ∀ j, k ≤ j → t.axis j = b.axis j
  quiet : ∀ j, j < b.cfg.nAx → (b.axis j).dirty = false →
    t.channel (b.cfg.chan j) = b.channel (b.cfg.chan j) ∧ t.line j = b.line j

section Updates

variable {b t : State} {k : Nat}

theorem UpdatesDone.cfg (h : UpdatesDone b k t) : t.cfg = b.cfg := by rw [h.frame]

theorem UpdatesDone.phase (h : UpdatesDone b k t) : t.fgPc = .upd k := by rw [h.frame]

theorem UpdatesDone.start (h : b.Inv) (hph : b.fgPc = .upd 0) : UpdatesDone b 0 b where
  inv := h
  frame := by rw [← hph]
  done j hj := absurd hj (Nat.not_lt_zero j)
  todo _ _ := rfl
  quiet _ _ _ := ⟨rfl, rfl⟩

/-- The UPD turn of a clean axis. -/
theorem UpdatesDone.skip (h : UpdatesDone b k t) (hinv : (t.startTurn.setPhase (.upd (k + 1))).Inv)
    (hd : (t.axis k).dirty = false) : UpdatesDone b (k + 1) (t.startTurn.setPhase (.upd (k + 1))) where
  inv := hinv
  frame := by
    rw [h.frame]
    rfl
  done j hj := by
    rw [setPhase_axis, startTurn_axis]
    obtain hlt | rfl := Nat.lt_succ_iff_lt_or_eq.mp hj
    · exact h.done j hlt
    · rw [h.todo j le_rfl] at hd ⊢
      exact (resyncedRegs_of_clean hd).symm
  todo j hj := h.todo j (Nat.le_of_succ_le hj)
  quiet := h.quiet

/-- The UPD turn of a dirty axis. -/
theorem UpdatesDone.update (h : UpdatesDone b k t) (hk : k < b.cfg.nAx)
    (hinv : ((updateAxis k t.startTurn).setPhase (.upd (k + 1))).Inv) (hd : (t.axis k).dirty = true) :
    UpdatesDone b (k + 1) ((updateAxis k t.startTurn).setPhase (.upd (k + 1))) where
  inv := hinv
  frame := by
    rw [updateAxis_frame, h.frame]
    rfl
  done j hj := by
    rw [setPhase_axis]
    obtain hlt | rfl := Nat.lt_succ_iff_lt_or_eq.mp hj
    · rw [updateAxis_axis_ne hlt.ne', startTurn_axis]
      exact h.done j hlt
    · have hself := updateAxis_axis_self (s := t.startTurn) h.inv.1 (h.cfg ▸ hk)
      rw [startTurn_axis, startTurn_cfg, h.cfg, h.todo j le_rfl] at hself
      rw [h.todo j le_rfl] at hd
      rw [hself, resyncedRegs_of_dirty hd]
  todo j hj := by
    rw [setPhase_axis, updateAxis_axis_ne (Nat.lt_of_succ_le hj).ne, startTurn_axis]
    exact h.todo j (Nat.le_of_succ_le hj)
  quiet j hj hclean := by
    have hkj : k ≠ j := by
      rintro rfl
      rw [h.todo k le_rfl, hclean] at hd
      exact absurd hd Bool.false_ne_true
    have hchan : t.startTurn.cfg.chan k ≠ b.cfg.chan j := by
      rw [startTurn_cfg, h.cfg]
      exact fun e => hkj (Cfg.chan_inj (h.cfg ▸ State.valid_accepted h.inv.1) hk hj e)
    rw [setPhase_channel, setPhase_line, updateAxis_channel_ne hchan, updateAxis_line_ne hkj]
    exact h.quiet j hj hclean

/-- One more UPD turn before the last axis is past (R155). -/
theorem UpdatesDone.next (h : UpdatesDone b k t) (hk : k < b.cfg.nAx) :
    ∃ u, foregroundStep t.startTurn = .next u ∧ UpdatesDone b (k + 1) u := by
  have hv' : t.startTurn.valid = true := h.inv.1
  have hk' : k ≠ t.startTurn.cfg.nAx := by
    rw [startTurn_cfg, h.cfg]
    exact hk.ne
  cases hd : (t.axis k).dirty with
  | false =>
    have hstep := foregroundStep_clean (s := t.startTurn) h.phase hk' hd
    exact ⟨_, hstep, h.skip (h.inv.foregroundStep hstep) hd⟩
  | true =>
    have hstep := foregroundStep_dirty hv' h.phase hk' hd
    exact ⟨_, hstep, h.update hk (h.inv.foregroundStep hstep) hd⟩

/-- The UPD turns after a run that has come to `UPD(0)`, up to the one past the last axis. -/
theorem runForeground_updates {s : State} {m : Nat} (hrun : runForeground m s = .next b) (hb : b.Inv)
    (hph : b.fgPc = .upd 0) (hk : k ≤ b.cfg.nAx) : ∃ t, runForeground (m + k) s = .next t ∧ UpdatesDone b k t := by
  induction k with
  | zero => exact ⟨b, hrun, .start hb hph⟩
  | succ k ih =>
    obtain ⟨t, ht, hdone⟩ := ih (Nat.le_of_succ_le hk)
    obtain ⟨u, hstep, hnext⟩ := hdone.next hk
    exact ⟨u, runForeground_succ ht hdone.inv.1 hstep, hnext⟩

end Updates

/-! ### CLRMASK and SNAPSHOT: the last three turns -/

/-- What the turn past the last axis, CLRMASK and SNAPSHOT leave. -/
def concluded (t : State) : State := snapshotAll (clearMask (t.startTurn.setPhase .clr).startTurn).startTurn

section Concluded

variable {s t : State} {n : Nat}

theorem concluded_frame (t : State) :
    concluded t =
      { t.startTurn with
        cmd := (concluded t).cmd
        status := (concluded t).status
        statusValid := true
        savedIe := t.ie
        fgPc := .idle } := by
  rw [concluded, snapshotAll_frame]
  rfl

@[simp] theorem concluded_axis (k : Nat) : (concluded t).axis k = t.axis k := by rw [concluded_frame]; rfl

@[simp] theorem concluded_channel (c : Nat) : (concluded t).channel c = t.channel c := by rw [concluded_frame]; rfl

@[simp] theorem concluded_line (k : Nat) : (concluded t).line k = t.line k := by rw [concluded_frame]; rfl

@[simp] theorem concluded_cfg : (concluded t).cfg = t.cfg := by rw [concluded_frame]; rfl

@[simp] theorem concluded_running (k : Nat) : (concluded t).running k = t.running k := by simp [State.running]

@[simp] theorem concluded_stopped (k : Nat) : (concluded t).stopped k = t.stopped k := by simp [State.stopped]

theorem setPhase_clr_valid (hv : t.valid = true) : (t.startTurn.setPhase .clr).startTurn.valid = true :=
  State.setPhase_valid (s := t.startTurn) hv rfl

theorem concluded_echoes (hv : t.valid = true) : (concluded t).status.read 0 = t.cmd.read 0 := by
  have hv1 := setPhase_clr_valid hv
  refine (snapshotAll_echoes (s := (clearMask _).startTurn) (clearMask_valid hv1)).trans ?_
  exact (clearMask_cmd_read hv1 0).trans (if_neg Nat.zero_ne_one)

theorem concluded_reports (hv : t.valid = true) : (concluded t).Reports t :=
  snapshotAll_reports (s := (clearMask (t.startTurn.setPhase .clr).startTurn).startTurn)
    (clearMask_valid (setPhase_clr_valid hv))

/-- The last three turns of a SET_STATE dispatch, and the phases between them (R155 to R158). -/
theorem runForeground_concluded (hrun : runForeground n s = .next t) (hv : t.valid = true)
    (hph : t.fgPc = .upd t.cfg.nAx) :
    (∃ u, runForeground (n + 1) s = .next u ∧ u.fgPc = .clr) ∧
      (∃ u, runForeground (n + 2) s = .next u ∧ u.fgPc = .snap) ∧
        runForeground (n + 3) s = .next (concluded t) := by
  have hv1 := setPhase_clr_valid hv
  have hv2 := clearMask_valid hv1
  have hpast := runForeground_succ hrun hv (foregroundStep_past (s := t.startTurn) hph)
  have hclr := runForeground_succ hpast hv1 (foregroundStep_clr hv1 rfl)
  have hsnap := runForeground_succ hclr hv2 (foregroundStep_snap (s := (clearMask _).startTurn) hv2 rfl)
  exact ⟨⟨_, hpast, rfl⟩, ⟨_, hclr, rfl⟩, hsnap⟩

end Concluded

/-! ### The whole dispatch -/

/-- A clean axis is RUNNING or STOPPED (R29, INV-B of R28). -/
theorem State.Inv.running_or_stopped {s : State} (h : s.Inv) {i : Nat} (hi : i < s.cfg.nAx)
    (hd : (s.axis i).dirty = false) : s.running i = true ∨ s.stopped i = true := by
  obtain ⟨hA, -, -⟩ := State.axisInv_iff.mp (h.2 i hi)
  have hruns := hA.runs hd
  rw [State.running_iff, State.stopped_iff]
  by_cases hf : (s.axis i).freq = 0#16
  · exact .inr ⟨hf, by simpa [hf] using hruns⟩
  · exact .inl ⟨hf, hruns.mp hf⟩

/-- The run of a SET_STATE dispatch: no phase before its last turn is IDLE, and the last turn concludes the updates. -/
theorem runForeground_setState {s : State} {bytes : List Byte} (h : s.Inv) (hi : s.fgPc = .idle)
    (hp : s.cmdPort = some bytes) (hl : bytes.length = s.cfg.cmdLen) (hop : bytes[0]? = some s.cfg.opSet) :
    (∀ n, 0 < n → n < s.cfg.nAx + 5 → ∃ u, runForeground n s = .next u ∧ u.fgPc ≠ .idle) ∧
      ∃ t, UpdatesDone (batched bytes s) s.cfg.nAx t ∧ runForeground (s.cfg.nAx + 5) s = .next (concluded t) := by
  obtain ⟨haccept, hbatch, hb⟩ := runForeground_batched h hi hp hl hop
  have hph : (batched bytes s).fgPc = .upd 0 := by rw [batched_frame]
  have hupdates (k : Nat) (hk : k ≤ s.cfg.nAx) := runForeground_updates hbatch hb hph (k := k) (by rwa [batched_cfg])
  obtain ⟨t, hrun, hdone⟩ := hupdates s.cfg.nAx le_rfl
  obtain ⟨⟨u, hclr, hu⟩, ⟨v, hsnap, hv⟩, hend⟩ :=
    runForeground_concluded hrun hdone.inv.1 (by rw [hdone.cfg, batched_cfg]; exact hdone.phase)
  rw [show 2 + s.cfg.nAx + 1 = s.cfg.nAx + 3 by omega] at hclr
  rw [show 2 + s.cfg.nAx + 2 = s.cfg.nAx + 4 by omega] at hsnap
  rw [show 2 + s.cfg.nAx + 3 = s.cfg.nAx + 5 by omega] at hend
  refine ⟨fun n hpos hn => ?_, t, hdone, hend⟩
  by_cases h1 : n = 1
  · exact ⟨_, h1 ▸ haccept, by simp [latchRecord]⟩
  by_cases h3 : n = s.cfg.nAx + 3
  · exact ⟨u, h3 ▸ hclr, by simp [hu]⟩
  by_cases h4 : n = s.cfg.nAx + 4
  · exact ⟨v, h4 ▸ hsnap, by simp [hv]⟩
  · obtain ⟨k, rfl⟩ : ∃ k, n = 2 + k := ⟨n - 2, by omega⟩
    obtain ⟨w, hw, hwdone⟩ := hupdates k (by omega)
    exact ⟨w, hw, by simp [hwdone.phase]⟩

section Dispatched

variable {s t : State} {bytes : List Byte} {k : Nat} (hdone : UpdatesDone (batched bytes s) s.cfg.nAx t)
  (h : s.Inv) (hl : bytes.length = s.cfg.cmdLen) (hk : k < s.cfg.nAx)
include hdone hk

/-- After the updates the record of each axis is the batch's, resynchronized. -/
theorem UpdatesDone.axis_eq : t.axis k = resyncedRegs s.cfg k ((batched bytes s).axis k) :=
  batched_cfg (s := s) (bytes := bytes) ▸ hdone.done k hk

include h hl

/-- An unselected axis goes through the dispatch untouched, with its channel and its line (R152, R155). -/
theorem UpdatesDone.unselected (hi : s.fgPc = .idle) (hs : (bytes.getD 1 0#8).getLsbD k = false) :
    t.axis k = s.axis k ∧ t.channel (s.cfg.chan k) = s.channel (s.cfg.chan k) ∧ t.line k = s.line k := by
  have hkept := batched_axis_unselected h.1 hl hs
  have hd : ((batched bytes s).axis k).dirty = false := hkept ▸ h.clean (by simp [hi]) hk
  obtain ⟨hchan, hline⟩ := hdone.quiet k (by rwa [batched_cfg]) hd
  rw [batched_cfg, batched_channel] at hchan
  rw [batched_line] at hline
  exact ⟨(hdone.axis_eq hk).trans ((resyncedRegs_of_clean hd).trans hkept), hchan, hline⟩

/-- A selected axis has the target of its slot, and the frequency its clamped request achieves (R153, R171). -/
theorem UpdatesDone.selected (hs : (bytes.getD 1 0#8).getLsbD k = true) :
    (t.axis k).target = word16 (bytes.getD (4 + 4 * k) 0#8) (bytes.getD (5 + 4 * k) 0#8) ∧
      (t.axis k).freq.toNat =
        if (t.axis k).target = (s.axis k).pos then 0
        else deriveResult s.cfg (s.cfg.chan k)
          (clampFreq (s.cfg.axis k) (word16 (bytes.getD (2 + 4 * k) 0#8) (bytes.getD (3 + 4 * k) 0#8)).toNat) := by
  have haxis := hdone.axis_eq hk
  rw [batched_axis_selected h.1 hl hk hs] at haxis
  obtain ⟨-, htarget, -⟩ := resyncedRegs_parts s.cfg k (commandedRegs (s.cfg.axis k) (s.axis k) _ _)
  obtain ⟨-, hcommanded, -⟩ := commandedRegs_parts (s.cfg.axis k) (s.axis k) _ _
  replace htarget := (congrArg AxisRegs.target haxis).trans (htarget.trans hcommanded)
  refine ⟨htarget, ?_⟩
  rw [htarget, haxis, resyncedRegs_commandedRegs_freq (State.valid_accepted h.1) hk]

/-- Every axis ends clean, where it stood, and RUNNING or STOPPED (R22, R155, R159). -/
theorem UpdatesDone.settled :
    (t.axis k).pos = (s.axis k).pos ∧ (t.axis k).dirty = false ∧ (t.running k = true ∨ t.stopped k = true) := by
  obtain ⟨hpos, -, hclean⟩ := resyncedRegs_parts s.cfg k ((batched bytes s).axis k)
  rw [← hdone.axis_eq hk] at hpos hclean
  have hk' : k < t.cfg.nAx := by rwa [hdone.cfg, batched_cfg]
  exact ⟨hpos.trans (batched_axis_pos h.1 hl k), hclean, hdone.inv.running_or_stopped hk' hclean⟩

end Dispatched

/-- Settles O49: the run turn by turn; then what the batch, the updates and the snapshot leave of each axis. -/
theorem setStateDispatchCompletes : Obligations.SetStateDispatchCompletes := by
  unfold Obligations.SetStateDispatchCompletes
  intro s bytes h hi hp hl hop
  obtain ⟨hbusy, t, hdone, hend⟩ := runForeground_setState h hi hp hl hop
  have hframe : concluded t = { concluded t with
      cfg := s.cfg, ie := s.ie, pend := s.pend, overrun := s.overrun, cmdPort := none
      fgPc := .idle, statusValid := true } := by
    rw [concluded_frame, hdone.frame, batched_frame]
    rfl
  refine ⟨fun n u hpos hn hu => ?busy, concluded t, hend, by rw [hframe], by rw [hframe], by rw [hframe],
    by rw [hframe], by rw [hframe], by rw [hframe], by rw [hframe], ?echo, fun k hk => ?axis⟩
  case busy =>
    obtain ⟨u', hu', hne⟩ := hbusy n hpos hn
    obtain rfl : u' = u := by simpa [hu'] using hu
    exact hne
  case echo =>
    have hcmd : t.cmd = (batched bytes s).cmd := by rw [hdone.frame]
    rw [concluded_echoes hdone.inv.1, hcmd, batched_cmd_read h.1 hl]
    simp [hop]
  case axis =>
    have hk' : k < t.cfg.nAx := by rwa [hdone.cfg, batched_cfg]
    obtain ⟨hfreqs, hposs⟩ := concluded_reports hdone.inv.1 k hk'
    obtain ⟨hpos, hclean, hstate⟩ := hdone.settled h hl hk
    rw [concluded_running, concluded_stopped, concluded_axis, concluded_channel, concluded_line]
    exact ⟨hfreqs, hposs, hpos, hclean, hstate, hdone.unselected h hl hk hi, hdone.selected h hl hk⟩

end Sys2Proof.Machine

/-! PROOFS. The statements of 45_guard_synchronizer.md: the guard (R181, R182), what it keeps for the status record and
for `IE` (R189), the steps that are not enabled, and whose turn a step is (R186, R208). -/

namespace Sys2Proof.Machine

/-! ## The guard (R181, R182) -/

/-- A guarded section that does nothing else restores `IE`; the saved copy stays behind (R182). -/
theorem guardExit_guardEnter (s : State) : guardExit (guardEnter s) = { s with savedIe := s.ie } := rfl

/-- Settles O22: GUARD_ENTER in a valid state is its two writes. -/
theorem guardEnterSavesAndClears : Obligations.GuardEnterSavesAndClears := by
  unfold Obligations.GuardEnterSavesAndClears
  exact fun s hv => exec_guardEnter_next.mpr ⟨hv, rfl⟩

/-- Settles O23: GUARD_EXIT in a valid state is its one write, which undoes that of GUARD_ENTER. -/
theorem guardExitRestores : Obligations.GuardExitRestores := by
  unfold Obligations.GuardExitRestores
  refine fun s hv => ⟨exec_guardExit_next.mpr ⟨hv, rfl⟩, fun t u ht hu => ?_⟩
  obtain ⟨-, rfl⟩ := exec_guardEnter_next.mp ht
  obtain ⟨-, rfl⟩ := exec_guardExit_next.mp hu
  exact guardExit_guardEnter s

/-! ## The status record of a guarded snapshot (R189) -/

/-- Settles O48: the record shows the frequency and the position of one state, and INV-A holds there. -/
theorem statusNeverShowsMotionAtTheTarget : Obligations.StatusNeverShowsMotionAtTheTarget := by
  unfold Obligations.StatusNeverShowsMotionAtTheTarget
  intro s t k h hph hk he hpos
  obtain ⟨hv, ⟨-, rfl⟩ | ⟨hne, -⟩⟩ := exec_snapshot_next.mp he
  case inr => exact absurd hph hne
  obtain ⟨hfreq, hshown⟩ := snapshotAll_reports hv k hk
  obtain ⟨hA, -⟩ := h.2 k hk
  rw [hfreq]
  exact hA (hshown.symm.trans hpos)

/-! ## `IE` across a step (R186, R189) -/

/-- A record presented is taken up by an empty port alone, and changes nothing else (R44, R248). -/
theorem presentRecord_frame (bytes : List Byte) (s : State) :
    presentRecord bytes s = { s with cmdPort := if s.cmdPort = none then some bytes else s.cmdPort } := by
  unfold presentRecord
  split
  · next hp => rw [hp, if_pos rfl]
  · next hp => rw [hp, if_neg (by simp), ← hp]

section InterruptEnable

variable {s t : State}

/-- An operation of an agent leaves `IE`: only the guarded sections write it, and they restore it (R182, R189). -/
theorem exec_agentStep_ie {i : Instr} (hi : Instr.IsAgentStep i) (he : exec i s = .next t) : t.ie = s.ie := by
  obtain rfl | rfl | ⟨k, rfl⟩ | rfl | rfl | ⟨c, g, rfl⟩ | ⟨k, rfl⟩ := hi
  · obtain ⟨-, ⟨bytes, -, -, -, rfl⟩ | ⟨-, rfl⟩⟩ := exec_accept_next.mp he
    · rw [acceptRecord_frame]
    · rfl
  · obtain ⟨-, ⟨-, rfl⟩ | ⟨-, rfl⟩⟩ := exec_batch_next.mp he
    · rw [batchAll_frame]
    · rfl
  · obtain ⟨-, -, ⟨-, rfl⟩ | ⟨-, rfl⟩⟩ := exec_updateAxis_next.mp he
    · rw [setPhase_ie, updateAxis_frame]
    · rfl
  · obtain ⟨-, ⟨-, rfl⟩ | ⟨-, rfl⟩⟩ := exec_clrMask_next.mp he
    · exact clearMask_ie
    · rfl
  · obtain ⟨-, ⟨-, rfl⟩ | ⟨-, rfl⟩⟩ := exec_snapshot_next.mp he
    · rw [snapshotAll_frame]
    · rfl
  · obtain ⟨-, -, ⟨-, rfl⟩ | ⟨-, rfl⟩⟩ := exec_ovf_next.mp he
    · rw [overflowEvent_frame]
    · rfl
  · obtain ⟨-, -, ⟨-, rfl⟩ | ⟨-, rfl⟩⟩ := exec_track_next.mp he
    · obtain ⟨-, -, -, hie, -⟩ := trackAxis_parts k s
      exact hie
    · rfl

end InterruptEnable

/-- Settles O56: the operations of the agents leave `IE`, and so do the turns that run none, but for `rst` and the boot
step. -/
theorem interruptEnableIsRestoredByEveryStep : Obligations.InterruptEnableIsRestoredByEveryStep := by
  unfold Obligations.InterruptEnableIsRestoredByEveryStep
  intro s t h
  obtain ⟨-, ⟨i, hi, he⟩ | ⟨-, rfl⟩ | ⟨k, -, -, -, rfl⟩ | ⟨hrst, -⟩ | ⟨hboot, -⟩ | ⟨bytes, -, rfl⟩⟩ := step_cases h
  · exact .inl ((exec_agentStep_ie hi he).trans turned_ie)
  · exact .inl (setPhase_ie _ _)
  · exact .inl (setPhase_ie _ _)
  · exact .inr (.inl hrst)
  · exact .inr (.inr hboot)
  · left
    rw [presentRecord_frame, turned_ie]

/-! ## Steps that are not enabled (R186, R208) -/

section NotEnabled

variable {s : State}

theorem State.clocked_eq_false_iff {c : Nat} :
    s.clocked c = false ↔ (s.channel c).ctl &&& (s.cfg.channel c).csMask = 0#8 := by
  simp [State.clocked, State.clockField]

theorem updateEnabled_eq_false_iff {i : Nat} :
    updateEnabled i s = false ↔ s.fgPc ≠ .upd i ∨ (s.axis i).dirty = false := by
  simp only [updateEnabled, Bool.and_eq_false_iff, decide_eq_false_iff_not, ne_eq]

/-- A command while a dispatch is in progress is not enabled (R146, R186). -/
theorem exec_command_of_busy (hv : s.valid = true) (hb : s.fgPc ≠ .idle) (op : Byte) (p : Payload) :
    ∀ i ∈ [Instr.getState p, .setState p, .resetReq p, .bootReq p, .unrecognized op p], exec i s = .next s := by
  have hidle : s.isIdle = false := decide_eq_false hb
  simp only [List.forall_mem_cons]
  exact ⟨exec_getState_next.mpr ⟨hv, .inr ⟨hidle, rfl⟩⟩, exec_setState_next.mpr ⟨hv, .inr ⟨hidle, rfl⟩⟩,
    exec_resetReq_next.mpr ⟨hv, .inr ⟨hidle, rfl⟩⟩, exec_bootReq_next.mpr ⟨hv, .inr ⟨hidle, rfl⟩⟩,
    exec_unrecognized_next.mpr ⟨hv, .inr ⟨hidle, rfl⟩⟩, by simp⟩

end NotEnabled

/-- Settles O25: a genuine event asks for a clocked channel. -/
theorem stoppedChannelRaisesNothing : Obligations.StoppedChannelRaisesNothing := by
  unfold Obligations.StoppedChannelRaisesNothing
  exact fun s c hv hc h0 => exec_ovf_next.mpr ⟨hv, hc, .inr ⟨State.clocked_eq_false_iff.mpr h0, rfl⟩⟩

/-- Settles O33: each step's enabling condition fails. -/
theorem disabledForegroundStepsChangeNothing : Obligations.DisabledForegroundStepsChangeNothing := by
  unfold Obligations.DisabledForegroundStepsChangeNothing
  exact fun s hv =>
    ⟨fun hph => exec_batch_next.mpr ⟨hv, .inr ⟨hph, rfl⟩⟩,
      fun hph => exec_clrMask_next.mpr ⟨hv, .inr ⟨hph, rfl⟩⟩,
      fun hph => exec_snapshot_next.mpr ⟨hv, .inr ⟨hph, rfl⟩⟩,
      fun i hi hoff => exec_updateAxis_next.mpr ⟨hv, hi, .inr ⟨updateEnabled_eq_false_iff.mpr hoff, rfl⟩⟩,
      exec_command_of_busy hv⟩

/-! ## Whose turn a step is (R186, R187) -/

section TurnOfInput

variable {s : State} {i : Nat}

/-- The lowest enabled tracker is the next one. -/
theorem State.nextTracker_of_lowest (hi : i < s.cfg.nAx) (he : trackEnabled i s = true)
    (hlow : ∀ j, j < i → trackEnabled j s = false) : s.nextTracker = some i :=
  List.find?_range_eq_some.mpr ⟨he, List.mem_range.mpr hi, fun j hj => by rw [hlow j hj]; rfl⟩

theorem State.nextTracker_of_none_enabled (h : ∀ j, j < s.cfg.nAx → trackEnabled j s = false) :
    s.nextTracker = none :=
  List.find?_range_eq_none.mpr fun j hj => by rw [h j hj]; rfl

/-- With no input left an enabled tracker moves, the lowest first (R187). -/
theorem step_default_tracker (hin : s.inputs = []) (hi : i < s.cfg.nAx) (he : trackEnabled i s = true)
    (hlow : ∀ j, j < i → trackEnabled j s = false) : step s = exec (.track i) s.startTurn := by
  rw [step_of_no_input hin, defaultTurn, State.nextTracker_of_lowest hi he hlow]

/-- With no input left and no tracker enabled the foreground moves, as on its input (R187). -/
theorem step_default_foreground (hin : s.inputs = []) (h : ∀ j, j < s.cfg.nAx → trackEnabled j s = false) :
    step s = step { s with inputs := [.foreground] } := by
  rw [step_of_no_input hin, defaultTurn, State.nextTracker_of_none_enabled h,
    step_of_input (s := { s with inputs := [.foreground] }) rfl, inputTurn, ← hin]

/-- On its input the foreground takes the one step of its phase (R186). -/
theorem step_foreground_phases {rest : List Input} (hv : s.valid = true) (hin : s.inputs = .foreground :: rest) :
    (s.fgPc = .idle → step s = exec .accept s.turned) ∧
      (s.fgPc = .batch → step s = exec .batch s.turned) ∧
        (∀ k, s.fgPc = .upd k → k < s.cfg.nAx → (s.axis k).dirty = true → step s = exec (.updateAxis k) s.turned) ∧
          (s.fgPc = .clr → step s = exec .clrMask s.turned) ∧ (s.fgPc = .snap → step s = exec .snapshot s.turned) := by
  rw [step_foreground hv hin]
  exact ⟨foregroundStep_of_idle (s := s.turned), foregroundStep_of_batch (s := s.turned),
    fun k hph hk hd => (foregroundStep_of_upd (s := s.turned) hph).trans (updTurn_dirty hk.ne hd),
    foregroundStep_of_clr (s := s.turned), foregroundStep_of_snap (s := s.turned)⟩

end TurnOfInput

/-- Settles O37: input by input, on the turned state; then the two default turns. -/
theorem stepTakesTheTurnOfItsInput : Obligations.StepTakesTheTurnOfItsInput := by
  unfold Obligations.StepTakesTheTurnOfItsInput
  intro s u rest hv hu
  have hturned {inp : Input} (hin : s.inputs = inp :: rest) : u = s.turned := hu.trans (turned_of_inputs hin).symm
  refine ⟨fun hin => ?foreground, fun c g hin => ?overflow, fun i hin => ?tracker, fun bytes hin => ?present,
    fun hin i => step_default_tracker hin, step_default_foreground⟩
  case foreground => exact hturned hin ▸ step_foreground_phases hv hin
  case overflow => exact hturned hin ▸ step_overflow hin
  case tracker => exact hturned hin ▸ step_tracker hin
  case present => rw [step_present hv hin, presentRecord_frame, hturned hin, turned_cmdPort]

end Sys2Proof.Machine

/-! PROOFS. The statements of 60_exceptions.md: the core raises no exception, so every well-formed operation answers a next
state (R200), and the tracker steps of two axes commute (R212). -/

namespace Sys2Proof.Machine

/-! ## Every check of a well-formed operation passes (R200) -/

section Completes

variable {s : State} {r : Result}

theorem whenValid_completes (hv : s.valid = true) (hr : ∃ t, r = .next t) : ∃ t, whenValid s r = .next t := by
  rwa [whenValid_of_valid hv]

theorem whenIndex_completes {i : Nat} (hi : i < s.cfg.nAx) (hr : ∃ t, r = .next t) :
    ∃ t, whenIndex i s r = .next t := by
  rwa [whenIndex_of_lt hi]

theorem whenRecord_completes {bytes : List Byte} (hl : bytes.length = s.cfg.cmdLen) (hr : ∃ t, r = .next t) :
    ∃ t, whenRecord bytes s r = .next t := by
  rwa [whenRecord_of_length hl]

/-- A step that is not enabled answers the state it found (log entry 4). -/
theorem whenEnabled_completes (b : Bool) (hr : ∃ t, r = .next t) : ∃ t, whenEnabled b s r = .next t := by
  cases b with
  | true => exact hr
  | false => exact ⟨s, rfl⟩

variable (hv : s.valid = true)
include hv

/-- A command whose record fits is accepted in phase IDLE and not enabled in any other (R146). -/
theorem exec_command_completes {p : Payload} (hf : p.fits s.cfg = true) (op : Byte) :
    ∀ i ∈ [Instr.getState p, .setState p, .resetReq p, .bootReq p, .unrecognized op p], ∃ t, exec i s = .next t := by
  intro i hmem
  by_cases hidle : s.fgPc = .idle
  · obtain ⟨op', t, he⟩ := exec_command_of_idle hv hidle op p i hmem
    exact he ▸ whenRecord_completes (encodeRecord_length_of_fits op' hf) ⟨t, rfl⟩
  · exact ⟨s, exec_command_of_busy hv hidle op p i hmem⟩

theorem exec_accept_completes (hl : ∀ bytes, s.cmdPort = some bytes → bytes.length = s.cfg.cmdLen) :
    ∃ t, exec .accept s = .next t := by
  refine whenValid_completes hv (whenEnabled_completes _ ?_)
  cases hp : s.cmdPort with
  | none => exact ⟨s, rfl⟩
  | some bytes => exact whenRecord_completes (hl bytes hp) ⟨_, rfl⟩

/-- The record of a command and an index operand are all that a valid state leaves to check. -/
theorem exec_completes {i : Instr} (hw : i.wellFormed s.cfg = true)
    (hl : i = .accept → ∀ bytes, s.cmdPort = some bytes → bytes.length = s.cfg.cmdLen) : ∃ t, exec i s = .next t := by
  cases i with
  | getState p => exact exec_command_completes hv hw s.cfg.opGet _ (by simp)
  | setState p => exact exec_command_completes hv hw s.cfg.opSet _ (by simp)
  | resetReq p => exact exec_command_completes hv hw s.cfg.opReset _ (by simp)
  | bootReq p => exact exec_command_completes hv hw s.cfg.opBoot _ (by simp)
  | unrecognized op p =>
    obtain ⟨hf, -⟩ := (Bool.and_eq_true _ _).mp hw
    exact exec_command_completes hv hf op _ (by simp)
  | accept => exact exec_accept_completes hv (hl rfl)
  | batch => exact whenValid_completes hv (whenEnabled_completes _ ⟨_, rfl⟩)
  | updateAxis k =>
    exact whenValid_completes hv (whenIndex_completes (of_decide_eq_true hw) (whenEnabled_completes _ ⟨_, rfl⟩))
  | clrMask => exact whenValid_completes hv (whenEnabled_completes _ ⟨_, rfl⟩)
  | snapshot => exact whenValid_completes hv (whenEnabled_completes _ ⟨_, rfl⟩)
  | derive c f => exact whenValid_completes hv (whenIndex_completes (of_decide_eq_true hw) ⟨_, rfl⟩)
  | enable c => exact whenValid_completes hv (whenIndex_completes (of_decide_eq_true hw) ⟨_, rfl⟩)
  | disable c => exact whenValid_completes hv (whenIndex_completes (of_decide_eq_true hw) ⟨_, rfl⟩)
  | guardEnter => exact whenValid_completes hv ⟨_, rfl⟩
  | guardExit => exact whenValid_completes hv ⟨_, rfl⟩
  | ovf c g =>
    exact whenValid_completes hv (whenIndex_completes (of_decide_eq_true hw) (whenEnabled_completes _ ⟨_, rfl⟩))
  | track k =>
    exact whenValid_completes hv (whenIndex_completes (of_decide_eq_true hw) (whenEnabled_completes _ ⟨_, rfl⟩))

end Completes

/-- Settles O51: validity, the record's length and the index pass their checks, and a step that is not enabled answers
too. -/
theorem everyWellFormedOperationCompletes : Obligations.EveryWellFormedOperationCompletes := by
  unfold Obligations.EveryWellFormedOperationCompletes
  exact fun _ _ hv hw hl => exec_completes hv hw hl

/-! ## The tracker steps of two axes commute (R212) -/

/-- A table that differs from another in one entry is that table with the entry written. -/
theorem eq_set_of_getD_ne {α : Type} {l l' : List α} {i : Nat} (d : α) (hl : l'.length = l.length)
    (h : ∀ j, i ≠ j → l'.getD j d = l.getD j d) : l' = l.set i (l'.getD i d) := by
  refine List.ext_getElem (by simpa using hl) fun j hj' hj => ?_
  by_cases hij : i = j
  · subst hij
    simp [hj']
  · have hjl : j < l.length := hl ▸ hj'
    simpa [hij, hj', hjl] using h j hij

/-- TRACK writes four tables, and the outside sees its writes (R26, R132). -/
theorem trackAxis_frame (i : Nat) (s : State) :
    trackAxis i s =
      { s with
        ax := (trackAxis i s).ax
        pend := (trackAxis i s).pend
        ch := (trackAxis i s).ch
        dirline := (trackAxis i s).dirline
        outputs := (trackAxis i s).outputs } := by
  unfold trackAxis stopAtTarget
  split <;> rfl

@[simp] theorem trackAxis_cfg (i : Nat) (s : State) : (trackAxis i s).cfg = s.cfg := by
  rw [trackAxis_frame]

@[simp] theorem trackAxis_ie (i : Nat) (s : State) : (trackAxis i s).ie = s.ie := by
  rw [trackAxis_frame]

@[simp] theorem trackAxis_pend (i : Nat) (s : State) : (trackAxis i s).pend = s.pend.set i false := by
  obtain ⟨hp, -⟩ := trackAxis_parts i s
  exact hp

theorem trackAxis_trackAxis_frame (i j : Nat) (s : State) :
    trackAxis i (trackAxis j s) =
      { s with
        ax := (trackAxis i (trackAxis j s)).ax
        pend := (trackAxis i (trackAxis j s)).pend
        ch := (trackAxis i (trackAxis j s)).ch
        dirline := (trackAxis i (trackAxis j s)).dirline
        outputs := (trackAxis i (trackAxis j s)).outputs } :=
  (trackAxis_frame i _).trans (by rw [trackAxis_frame j s])

section TwoTrackers

variable {s : State} {i j : Nat}

/-- The direction line after TRACK: idled at the target, as before anywhere else (R134). -/
theorem trackAxis_line_self (h : i < s.ax.length) (hl : i < s.dirline.length) :
    (trackAxis i s).line i =
      if countedPos (s.cfg.axis i) (s.axis i) = (s.axis i).target then (s.cfg.axis i).dirIdle else s.line i := by
  split
  · next he => exact trackAxis_line_stopped h hl he
  · next hne =>
    rw [trackAxis_moves h hne]
    rfl

/-- TRACK writes one entry of each table: that of its axis or of the bound channel (R212). -/
theorem trackAxis_tables (hv : s.valid = true) (hi : i < s.cfg.nAx) :
    (trackAxis i s).ax = s.ax.set i ((trackAxis i s).axis i) ∧
      (trackAxis i s).ch = s.ch.set (s.cfg.chan i) ((trackAxis i s).channel (s.cfg.chan i)) ∧
        (trackAxis i s).dirline = s.dirline.set i ((trackAxis i s).line i) := by
  obtain ⟨hax, hch, hline, -⟩ := State.valid_tables hv
  obtain ⟨hax', hch', hline', -⟩ := State.valid_tables (trackAxis_valid hv i)
  rw [trackAxis_cfg] at hax' hch' hline'
  obtain ⟨hl, -⟩ := State.lt_tables hv hi
  exact ⟨eq_set_of_getD_ne _ (hax'.trans hax.symm) fun _ => trackAxis_axis_ne hl,
    eq_set_of_getD_ne _ (hch'.trans hch.symm) fun _ => trackAxis_channel_ne hl,
    eq_set_of_getD_ne _ (hline'.trans hline.symm) fun _ => trackAxis_line_ne hl⟩

variable (hv : s.valid = true) (hi : i < s.cfg.nAx) (hj : j < s.cfg.nAx) (hij : i ≠ j)
include hv hi hj hij

/-- Two axes are not bound to one channel (WF2). -/
theorem State.chan_ne : s.cfg.chan j ≠ s.cfg.chan i :=
  fun e => hij (Cfg.chan_inj (State.valid_accepted hv) hi hj e.symm)

/-- The entries that TRACK writes do not depend on the step of another tracker before it: it reads its own entries
alone (R212). -/
theorem trackAxis_own_after_other :
    (trackAxis i (trackAxis j s)).axis i = (trackAxis i s).axis i ∧
      (trackAxis i (trackAxis j s)).channel (s.cfg.chan i) = (trackAxis i s).channel (s.cfg.chan i) ∧
        (trackAxis i (trackAxis j s)).line i = (trackAxis i s).line i := by
  have hchan := State.chan_ne hv hi hj hij
  obtain ⟨hl, hc, hd, -⟩ := State.lt_tables hv hi
  obtain ⟨hlj, -⟩ := State.lt_tables hv hj
  obtain ⟨hl', hc', hd', -⟩ := State.lt_tables (trackAxis_valid hv j) (by simpa using hi)
  have haxis := trackAxis_axis_ne hlj hij.symm
  have hchannel := trackAxis_channel_ne hlj hchan
  have hline := trackAxis_line_ne hlj hij.symm
  have hself := trackAxis_channel_self hl' hc'
  rw [trackAxis_cfg] at hself
  refine ⟨?_, ?_, ?_⟩
  · rw [trackAxis_axis_self hl', trackAxis_axis_self hl, trackAxis_cfg, haxis]
  · rw [hself, trackAxis_channel_self hl hc, haxis, hchannel]
  · rw [trackAxis_line_self hl' hd', trackAxis_line_self hl hd, trackAxis_cfg, haxis, hline]

/-- After the steps of two trackers each table holds the entry that either writes alone. -/
theorem trackAxis_trackAxis_tables :
    (trackAxis i (trackAxis j s)).ax = (s.ax.set j ((trackAxis j s).axis j)).set i ((trackAxis i s).axis i) ∧
      (trackAxis i (trackAxis j s)).ch =
        (s.ch.set (s.cfg.chan j) ((trackAxis j s).channel (s.cfg.chan j))).set (s.cfg.chan i)
          ((trackAxis i s).channel (s.cfg.chan i)) ∧
        (trackAxis i (trackAxis j s)).dirline =
          (s.dirline.set j ((trackAxis j s).line j)).set i ((trackAxis i s).line i) := by
  obtain ⟨hax, hch, hline⟩ := trackAxis_tables hv hj
  obtain ⟨hax', hch', hline'⟩ := trackAxis_tables (trackAxis_valid hv j) (i := i) (by simpa using hi)
  obtain ⟨haxis, hchannel, hown⟩ := trackAxis_own_after_other hv hi hj hij
  rw [trackAxis_cfg] at hch'
  exact ⟨by rw [hax', haxis, ← hax], by rw [hch', hchannel, ← hch], by rw [hline', hown, ← hline]⟩

/-- Writes to different entries commute; only the order of the outputs is left open (R212). -/
theorem trackAxis_comm :
    trackAxis i (trackAxis j s) =
      { trackAxis j (trackAxis i s) with outputs := (trackAxis i (trackAxis j s)).outputs } := by
  have hchan := State.chan_ne hv hi hj hij
  obtain ⟨hax, hch, hline⟩ := trackAxis_trackAxis_tables hv hi hj hij
  obtain ⟨hax', hch', hline'⟩ := trackAxis_trackAxis_tables hv hj hi hij.symm
  have eax : (trackAxis i (trackAxis j s)).ax = (trackAxis j (trackAxis i s)).ax := by
    rw [hax, hax', List.set_comm _ _ hij.symm]
  have ech : (trackAxis i (trackAxis j s)).ch = (trackAxis j (trackAxis i s)).ch := by
    rw [hch, hch', List.set_comm _ _ hchan]
  have eline : (trackAxis i (trackAxis j s)).dirline = (trackAxis j (trackAxis i s)).dirline := by
    rw [hline, hline', List.set_comm _ _ hij.symm]
  have epend : (trackAxis i (trackAxis j s)).pend = (trackAxis j (trackAxis i s)).pend := by
    simp only [trackAxis_pend]
    exact List.set_comm _ _ hij.symm
  calc trackAxis i (trackAxis j s)
      = { s with
          ax := (trackAxis i (trackAxis j s)).ax
          pend := (trackAxis i (trackAxis j s)).pend
          ch := (trackAxis i (trackAxis j s)).ch
          dirline := (trackAxis i (trackAxis j s)).dirline
          outputs := (trackAxis i (trackAxis j s)).outputs } := trackAxis_trackAxis_frame i j s
    _ = { trackAxis j (trackAxis i s) with outputs := (trackAxis i (trackAxis j s)).outputs } := by
      rw [eax, epend, ech, eline, trackAxis_trackAxis_frame j i s]

end TwoTrackers

/-- Settles O28: each tracker leaves the other enabled, and the entries they write are apart. -/
theorem trackerStepsCommute : Obligations.TrackerStepsCommute := by
  unfold Obligations.TrackerStepsCommute
  intro s i j hv hi hj hij hpi hpj hie
  refine ⟨_, _, _, _, exec_track_of_pending hv hi hpi hie, ?ji, exec_track_of_pending hv hj hpj hie, ?ij,
    trackAxis_comm hv hi hj hij⟩
  case ji =>
    exact exec_track_of_pending (trackAxis_valid hv i) (by simpa using hj) (by rwa [trackAxis_pending_ne hij])
      (by simpa using hie)
  case ij =>
    exact exec_track_of_pending (trackAxis_valid hv j) (by simpa using hi) (by rwa [trackAxis_pending_ne hij.symm])
      (by simpa using hie)

end Sys2Proof.Machine

/-! PROOFS. The statements of 70_reset_and_hazards.md: the turn of `rst` (R230, R232) and the boot step (R233, R249). -/

namespace Sys2Proof.Machine

/-! ## The boot step in its phase (R233) and in any other (R249) -/

theorem bootStep_of_idle {s : State} (h : s.fgPc = .idle) : bootStep s = { s with ie := true } :=
  if_pos (decide_eq_true h)

/-- During a dispatch the boot step does nothing (R249, log entry 9). -/
theorem bootStep_of_busy {s : State} (h : s.fgPc ≠ .idle) : bootStep s = s := by
  have hidle : s.isIdle = false := decide_eq_false h
  rw [bootStep, hidle, if_neg Bool.false_ne_true]

/-- Settles O2: the turn of `rst` asserts the reset once its input is consumed. -/
theorem rstRestoresTheResetValues : Obligations.RstRestoresTheResetValues := by
  unfold Obligations.RstRestoresTheResetValues
  exact fun _ _ => step_rst

/-- Settles O3: the turn of the boot step, in phase IDLE and in another phase. -/
theorem bootStepEnablesTheTrackers : Obligations.BootStepEnablesTheTrackers := by
  unfold Obligations.BootStepEnablesTheTrackers
  intro s rest hv hin
  rw [step_boot hv hin]
  refine ⟨fun hidle => ?idle, fun hbusy => ?busy⟩
  case idle =>
    rw [bootStep_of_idle (s := s.turned) hidle, turned_of_inputs hin]
    rfl
  case busy =>
    rw [bootStep_of_busy (s := s.turned) hbusy, turned_of_inputs hin]
    rfl

end Sys2Proof.Machine
